-- ==== Sys2Proof/Word.lean ====
section
/-! DEFINITION. Word.lean: the widths of the registers and of the fields, by the spec's own names.

10_state.md R22 to R26 and 00_scope.md R8 (parameters W, CUR_W, UC_W, OFF_W, decisions D1 and D13). -/

namespace Sys2Proof

/-- A data byte of a packet, 8 bits (10_state.md R25). -/
abbrev Byte := BitVec 8

/-- A value of the free-running counter, of the compare register, or a duration in ticks: W = 16 bits
(10_state.md R22, 30_encoding.md R96). -/
abbrev Ticks := BitVec 16

/-- A cursor of the ring, CUR_W = 6 bits; only 0 to 41 are reachable (10_state.md R24, R32). -/
abbrev Cursor := BitVec 6

/-- A usage count: the number of valid bytes minus one, UC_W = 2 bits (10_state.md R25). -/
abbrev Usage := BitVec 2

/-- The receiver's per-byte offset, OFF_W = 3 bits; only 0 to 4 are reachable (10_state.md R23, R32). -/
abbrev Offset := BitVec 3

end Sys2Proof
end

