-- ==== Sys2Proof/Config.lean ====
section
/-! DEFINITION. Config.lean: what a build of the hardware fixes, and the free values of the model.

The parameters are those of 00_scope.md R7 and R8. They are "process-wide constants, fixed at build time"
(10_state.md R29): a record of them stands in State and no step writes it, so that a claim about every state is a claim
about every build. -/

namespace Sys2Proof

namespace Config

/-- `CAP`, the number of slots of the ring (00_scope.md R7). -/
abbrev cap : Nat := 42

/-- `SLOT_BYTES`, the data bytes of a slot (00_scope.md R7). -/
abbrev slotBytes : Nat := 4

/-- `N_PRE_MIN`, the least number of preamble bits a build may have (00_scope.md R7). -/
abbrev nPreMin : Nat := 13

/-- `WDT_TIMEOUT` in seconds, the interval of the external watchdog (00_scope.md R7); no rule of the core reads it. -/
abbrev wdtTimeoutSeconds : Nat := 4

/-- The parameters a build fixes (00_scope.md R7 and R8; 92_eei_decisions.md lists them as a model's arguments). -/
structure Params where
  /-- `T_ONE`, ticks of a semi-period of a "1" bit -/
  tOne : Ticks
  /-- `T_ZERO`, ticks of a semi-period of a "0" bit -/
  tZero : Ticks
  /-- `T_PAUSE`, ticks of the pause symbol -/
  tPause : Ticks
  /-- `N_PRE`, the exact number of preamble bits; a build has at least `N_PRE_MIN` -/
  nPre : Nat
  /-- `CNT_RESET`, the counter after reset -/
  cntReset : Ticks
  /-- `CMP_RESET`, the compare register after reset -/
  cmpReset : Ticks
  /-- `PIN_RESET`, the output level after reset -/
  pinReset : Bool
  /-- `HALT_DELAY`, ticks of the delay of a HALTED iteration, at least 1 -/
  haltDelay : Nat
  /-- `LAT_MAX`, the latency bound a claim about the waveform assumes; no step reads it -/
  latMax : Nat
  /-- `TICK_NS`, the nominal length of a tick; no step reads it -/
  tickNs : Nat
  /-- `SLAVE_ADDR`, matched outside the core; no step reads it -/
  slaveAddr : Nat
  deriving DecidableEq, Repr

/-- The values and defaults of 00_scope.md R7 and R8. `HALT_DELAY` = 1 and `LAT_MAX` = 0 are those of the spec's test
vectors and `SLAVE_ADDR` = 0 is the model's (DESIGN CHOICE, log entry 4). -/
def Params.default : Params :=
  { tOne := 58, tZero := 100, tPause := 500, nPre := 13, cntReset := 0, cmpReset := 0, pinReset := false,
    haltDelay := 1, latMax := 0, tickNs := 1000, slaveAddr := 0 }

/-- What 00_scope.md R8 asks of a build: `N_PRE >= N_PRE_MIN` and a HALTED delay of at least one tick. -/
abbrev Params.wf (c : Params) : Prop := nPreMin ≤ c.nPre ∧ 1 ≤ c.haltDelay

/-- One choice of the next step among the agents of 00_scope.md R12. -/
inductive Choice where
  /-- HW takes its step `TICK` -/
  | tick
  /-- the bus collaborator delivers one event word, format BUSEVT; RX takes its step -/
  | bus (w : BitVec 10)
  /-- TX, the control loop, takes its step -/
  | tx
  /-- ENV sets the level of the enable input -/
  | enable (v : Bool)
  /-- ENV resets the core -/
  | reset
  deriving DecidableEq, Repr, Inhabited

/-- FREE VALUE (log entry 2). Some agent, for the n-th step for which the state lists no pending move: 00_scope.md R12
leaves the order free ("Any step that is enabled may be the next step"), so nothing is known of it. -/
opaque anyAgent : Nat → Choice

/-- FREE VALUE (log entry 2). How many steps may pass before the n-th turn that 00_scope.md R13 promises to the counter or
to the control loop; the rules give a result for every latency, so nothing is known of it. -/
opaque anySpan : Nat → Nat

/-- Where the free choices stand: the number of the next promised turn, and how many steps come before it. -/
def turnAt : Nat → Nat × Nat
  | 0 => (0, anySpan 0)
  | n + 1 =>
    match turnAt n with
    | (turn, 0) => (turn + 1, anySpan (turn + 1))
    | (turn, left + 1) => (turn, left)

/-- The free choice of the next agent at the n-th step for which the state lists no pending move (00_scope.md R12), under
the two assumptions R13 makes of every run: after every finite span of free choices comes a tick (turns with an even
number) or a turn of the control loop (turns with an odd number), so neither is ever put off for good. Choices and spans
being free, every order that meets R13 is one of these, but for turns at which the control loop has no enabled step. -/
def freeChoice (n : Nat) : Choice :=
  match turnAt n with
  | (turn, 0) => if turn % 2 = 0 then .tick else .tx
  | (_, _ + 1) => anyAgent n

end Config

end Sys2Proof
end

