-- ==== Sys2Proof/Syntax.lean ====
section
/-! DEFINITION. Syntax.lean: the operations of the hardware, its "instructions" (00_scope.md R3, 30_encoding.md R90), one
constructor per row of spec/opcode_table.json, with the ports and interfaces their words are carried on. -/

namespace Sys2Proof

/-- The symbols BitEncoder accepts (00_scope.md R16; codes: 30_encoding.md R95). -/
inductive Sym where
  | zero
  | one
  | pause
  deriving DecidableEq, Repr

/-- A micro-operation of the transmit sequencer's program (10_state.md R28, 30_encoding.md R97). -/
inductive UOp where
  /-- `ADV(d)`: one semi-period of d ticks -/
  | adv (d : Ticks)
  /-- `ADVREAD`: clear the slot just sent and advance the read cursor -/
  | advread
  deriving DecidableEq, Repr

/-- Where a word is carried: the ports of 10_state.md R20 that start a step, and the internal interfaces of
30_encoding.md R91. -/
inductive Port where
  /-- port `tick`, format STROBE -/
  | tick
  /-- port `rst`, format STROBE -/
  | rst
  /-- port `enable`, format LEVEL -/
  | enable
  /-- port `bus_evt`, format BUSEVT -/
  | busEvt
  /-- BE to WS, format DUR -/
  | dur
  /-- the match flag seen by the wait, format FLAG -/
  | flag
  /-- FB and TX to BE, format SYM -/
  | sym
  /-- the frame FB makes, format FRAME -/
  | frame
  /-- RING to TX, format QRES -/
  | qres
  /-- TX to RING, the ADVREAD strobe, format STROBE -/
  | ringAdvread
  /-- RX to RING, format COMMITW -/
  | commitw
  /-- the word that selects the TX step, format TXSEL -/
  | txsel
  /-- an element of the sequencer's program, format UOP -/
  | uop
  deriving DecidableEq, Repr

/-- A word on a port or interface, read as one number with bit 0 its least significant bit (30_encoding.md R92 to R100).
A Nat, because the FRAME format has no fixed width (it grows with `N_PRE`). -/
structure PortWord where
  port : Port
  bits : Nat
  deriving DecidableEq, Repr

/-- The operations (30_encoding.md R90; one per row of spec/opcode_table.json). An operand named `x`, `x1` or `x0` stands
for the bits the pattern ignores; they are kept, so that no bit of a word is lost. -/
inductive Instr where
  /-- WS_TICK, one tick of the free-running counter (R120) -/
  | wsTick
  /-- WS_ADV(d), move the compare target by d (R121) -/
  | wsAdv (d : Ticks)
  /-- WS_WAIT, consume the match (R122) -/
  | wsWait
  /-- BE_ZERO, expand a "0" bit (R141) -/
  | beZero
  /-- BE_ONE, expand a "1" bit (R140) -/
  | beOne
  /-- BE_PAUSE, expand the pause symbol (R142) -/
  | bePause
  /-- SYM_RSVD, the reserved symbol code 3 (R103) -/
  | symRsvd
  /-- FB_FRAME1, the frame of one data byte a with checksum k (R156) -/
  | fbFrame1 (a k : Byte)
  /-- FB_FRAME2 (R156) -/
  | fbFrame2 (a b k : Byte)
  /-- FB_FRAME3 (R156) -/
  | fbFrame3 (a b c k : Byte)
  /-- FB_FRAME4 (R156) -/
  | fbFrame4 (a b c d k : Byte)
  /-- RING_TRYNEXT, the ready query; v and i are the fields of the answer word (R170, R94) -/
  | ringTrynext (v : Bool) (i : Cursor)
  /-- RING_ADVREAD, clear the consumed slot and advance the read cursor (R172) -/
  | ringAdvread
  /-- RING_COMMIT, write the usage count u and advance the write cursor; a to d describe the slot's bytes (R173, R93) -/
  | ringCommit (u : Usage) (d c b a : Byte)
  /-- RX_ADDR(a), an address-phase byte (R191) -/
  | rxAddr (a : Byte)
  /-- RX_DATA(d), a data-phase byte (R192) -/
  | rxData (d : Byte)
  /-- RX_STOP, a stop condition (R193) -/
  | rxStop (x : Byte)
  /-- RX_RSVD, an event of the reserved kind 3 (R196) -/
  | rxRsvd (x : Byte)
  /-- TX_ITER_HALTED (R211) -/
  | txIterHalted (x : BitVec 3)
  /-- TX_ITER_READY (R212) -/
  | txIterReady (x : BitVec 2)
  /-- TX_ITER_EMPTY (R213) -/
  | txIterEmpty (x : BitVec 2)
  /-- TX_RUN_ADV (R214) -/
  | txRunAdv (x : BitVec 2)
  /-- TX_RUN_ADVREAD (R214) -/
  | txRunAdvread (x : BitVec 2)
  /-- TX_RUN_END (R214) -/
  | txRunEnd (x1 : BitVec 2) (x0 : BitVec 1)
  /-- TX_WAIT (R215) -/
  | txWait (x : BitVec 4)
  /-- TX_HALT (R216) -/
  | txHalt (x : BitVec 4)
  /-- ENV_ENABLE(e), the outside world sets the enable level (R218) -/
  | envEnable (e : Bool)
  /-- ENV_RESET (R261) -/
  | envReset
  /-- UOP_ADV, the micro-operation ADV(d) at the head of the program (R214, R97) -/
  | uopAdv (d : Ticks)
  /-- UOP_ADVREAD, the micro-operation ADVREAD at the head of the program (R214, R97) -/
  | uopAdvread (x : BitVec 16)
  deriving DecidableEq, Repr

end Sys2Proof
end

