-- ==== Sys2Proof/Decode.lean ====
section
/-! DEFINITION. Decode.lean: from a word on a port to the operation it selects, and back.

30_encoding.md R92 to R100. The decoder is total: a word that selects no operation of its port is rejected by name. -/

namespace Sys2Proof

/-- Why a word selects no operation. -/
inductive DecodeError where
  /-- the word has a bit above the format's width -/
  | tooWide (p : Port)
  /-- a STROBE or FLAG word of 0: no event, or a wait that is not let through (R99) -/
  | noEvent (p : Port)
  /-- the word is not of the shape of R100 for this build's preamble length and 1 to 4 data bytes -/
  | notAFrame
  deriving DecidableEq, Repr

/-- Bits lo+n-1 down to lo of a word. -/
def field (n lo w : Nat) : BitVec n := BitVec.ofNat n (w / 2 ^ lo)

/-- STROBE and FLAG: the word 1 is the event (R99). -/
def decodeStrobe (p : Port) (i : Instr) (w : Nat) : Except DecodeError Instr :=
  if w = 1 then .ok i else if w = 0 then .error (.noEvent p) else .error (.tooWide p)

/-- LEVEL: the new level of `enable` (R99). -/
def decodeLevel (w : Nat) : Except DecodeError Instr :=
  if w = 0 then .ok (.envEnable false) else if w = 1 then .ok (.envEnable true) else .error (.tooWide .enable)

/-- BUSEVT: bits 9:8 the kind, bits 7:0 the byte (R92). -/
def decodeBusEvt (w : Nat) : Except DecodeError Instr :=
  if w < 256 then .ok (.rxAddr (field 8 0 w))
  else if w < 512 then .ok (.rxData (field 8 0 w))
  else if w < 768 then .ok (.rxStop (field 8 0 w))
  else if w < 1024 then .ok (.rxRsvd (field 8 0 w))
  else .error (.tooWide .busEvt)

/-- DUR: a duration (R96). -/
def decodeDur (w : Nat) : Except DecodeError Instr :=
  if w < 65536 then .ok (.wsAdv (field 16 0 w)) else .error (.tooWide .dur)

/-- SYM: the symbol code (R95); code 3 is the reserved symbol (R103 (b)). -/
def decodeSym (w : Nat) : Except DecodeError Instr :=
  if w = 0 then .ok .beZero
  else if w = 1 then .ok .beOne
  else if w = 2 then .ok .bePause
  else if w = 3 then .ok .symRsvd
  else .error (.tooWide .sym)

/-- The `N_PRE` preamble ones and the start bit 0, as a number (R100). -/
def framePreamble (nPre : Nat) : Nat := 2 ^ (nPre + 1) - 2

/-- FRAME: read from its last bit, the stop bit 1, the checksum byte, and 1 to 4 groups of a data byte and a separator 0,
after which the preamble and the start bit stand (R100). -/
def decodeFrame (nPre w : Nat) : Except DecodeError Instr :=
  let k : Byte := field 8 1 w
  if w % 2 = 1 ∧ w / 2 ^ 9 % 2 = 0 then
    if w / 2 ^ 18 = framePreamble nPre then .ok (.fbFrame1 (field 8 10 w) k)
    else if w / 2 ^ 18 % 2 = 0 then
      if w / 2 ^ 27 = framePreamble nPre then .ok (.fbFrame2 (field 8 19 w) (field 8 10 w) k)
      else if w / 2 ^ 27 % 2 = 0 then
        if w / 2 ^ 36 = framePreamble nPre then .ok (.fbFrame3 (field 8 28 w) (field 8 19 w) (field 8 10 w) k)
        else if w / 2 ^ 36 % 2 = 0 ∧ w / 2 ^ 45 = framePreamble nPre then
          .ok (.fbFrame4 (field 8 37 w) (field 8 28 w) (field 8 19 w) (field 8 10 w) k)
        else .error .notAFrame
      else .error .notAFrame
    else .error .notAFrame
  else .error .notAFrame

/-- QRES: bit 6 valid, bits 5:0 the index (R94). -/
def decodeQres (w : Nat) : Except DecodeError Instr :=
  if w < 128 then .ok (.ringTrynext (decide (w / 64 = 1)) (field 6 0 w)) else .error (.tooWide .qres)

/-- COMMITW: bits 33:32 uc, then b[3] down to b[0] (R93). -/
def decodeCommitw (w : Nat) : Except DecodeError Instr :=
  if w < 2 ^ 34 then .ok (.ringCommit (field 2 32 w) (field 8 24 w) (field 8 16 w) (field 8 8 w) (field 8 0 w))
  else .error (.tooWide .commitw)

/-- TXSEL: the eight patterns of R98. -/
def decodeTxsel (w : Nat) : Except DecodeError Instr :=
  if w < 8 then .ok (.txIterHalted (field 3 0 w))
  else if w < 12 then .ok (.txIterEmpty (field 2 0 w))
  else if w < 16 then .ok (.txIterReady (field 2 0 w))
  else if w < 32 then
    if w / 2 % 2 = 0 then .ok (.txRunEnd (field 2 2 w) (field 1 0 w))
    else if w % 2 = 0 then .ok (.txRunAdv (field 2 2 w))
    else .ok (.txRunAdvread (field 2 2 w))
  else if w < 48 then .ok (.txWait (field 4 0 w))
  else if w < 64 then .ok (.txHalt (field 4 0 w))
  else .error (.tooWide .txsel)

/-- UOP: tag 0 is ADV(d), tag 1 is ADVREAD (R97). -/
def decodeUop (w : Nat) : Except DecodeError Instr :=
  if w < 65536 then .ok (.uopAdv (field 16 0 w))
  else if w < 131072 then .ok (.uopAdvread (field 16 0 w))
  else .error (.tooWide .uop)

/-- The operation a word selects on the port it is carried on, in a build with `nPre` preamble bits. -/
def decode (nPre : Nat) (pw : PortWord) : Except DecodeError Instr :=
  match pw.port with
  | .tick => decodeStrobe .tick .wsTick pw.bits
  | .rst => decodeStrobe .rst .envReset pw.bits
  | .enable => decodeLevel pw.bits
  | .busEvt => decodeBusEvt pw.bits
  | .dur => decodeDur pw.bits
  | .flag => decodeStrobe .flag .wsWait pw.bits
  | .sym => decodeSym pw.bits
  | .frame => decodeFrame nPre pw.bits
  | .qres => decodeQres pw.bits
  | .ringAdvread => decodeStrobe .ringAdvread .ringAdvread pw.bits
  | .commitw => decodeCommitw pw.bits
  | .txsel => decodeTxsel pw.bits
  | .uop => decodeUop pw.bits

/-- The FRAME word of the data bytes `ds`, first byte first on the line, and the checksum byte k (R100). -/
def frameWord (nPre : Nat) (ds : List Byte) (k : Byte) : Nat :=
  ds.foldl (fun acc d => acc * 512 + d.toNat * 2) (framePreamble nPre) * 512 + k.toNat * 2 + 1

/-- The word of an operation, written from the formats of R92 to R100, in a build with `nPre` preamble bits. -/
def encode (nPre : Nat) : Instr → PortWord
  | .wsTick => ⟨.tick, 1⟩
  | .wsAdv d => ⟨.dur, d.toNat⟩
  | .wsWait => ⟨.flag, 1⟩
  | .beZero => ⟨.sym, 0⟩
  | .beOne => ⟨.sym, 1⟩
  | .bePause => ⟨.sym, 2⟩
  | .symRsvd => ⟨.sym, 3⟩
  | .fbFrame1 a k => ⟨.frame, frameWord nPre [a] k⟩
  | .fbFrame2 a b k => ⟨.frame, frameWord nPre [a, b] k⟩
  | .fbFrame3 a b c k => ⟨.frame, frameWord nPre [a, b, c] k⟩
  | .fbFrame4 a b c d k => ⟨.frame, frameWord nPre [a, b, c, d] k⟩
  | .ringTrynext v i => ⟨.qres, v.toNat * 64 + i.toNat⟩
  | .ringAdvread => ⟨.ringAdvread, 1⟩
  | .ringCommit u d c b a =>
    ⟨.commitw, u.toNat * 2 ^ 32 + d.toNat * 2 ^ 24 + c.toNat * 2 ^ 16 + b.toNat * 2 ^ 8 + a.toNat⟩
  | .rxAddr a => ⟨.busEvt, a.toNat⟩
  | .rxData d => ⟨.busEvt, 256 + d.toNat⟩
  | .rxStop x => ⟨.busEvt, 512 + x.toNat⟩
  | .rxRsvd x => ⟨.busEvt, 768 + x.toNat⟩
  | .txIterHalted x => ⟨.txsel, x.toNat⟩
  | .txIterReady x => ⟨.txsel, 12 + x.toNat⟩
  | .txIterEmpty x => ⟨.txsel, 8 + x.toNat⟩
  | .txRunAdv x => ⟨.txsel, 16 + x.toNat * 4 + 2⟩
  | .txRunAdvread x => ⟨.txsel, 16 + x.toNat * 4 + 3⟩
  | .txRunEnd x1 x0 => ⟨.txsel, 16 + x1.toNat * 4 + x0.toNat⟩
  | .txWait x => ⟨.txsel, 32 + x.toNat⟩
  | .txHalt x => ⟨.txsel, 48 + x.toNat⟩
  | .envEnable e => ⟨.enable, e.toNat⟩
  | .envReset => ⟨.rst, 1⟩
  | .uopAdv d => ⟨.uop, d.toNat⟩
  | .uopAdvread x => ⟨.uop, 65536 + x.toNat⟩

/-- How many bits an operation's word has: the width column of spec/opcode_table.json, with the preamble length of the
build in place of the table's 13 (R91, R100). -/
def wordWidth (nPre : Nat) : Instr → Nat
  | .wsTick | .wsWait | .ringAdvread | .envEnable _ | .envReset => 1
  | .beZero | .beOne | .bePause | .symRsvd => 2
  | .txIterHalted _ | .txIterReady _ | .txIterEmpty _ | .txRunAdv _ => 6
  | .txRunAdvread _ | .txRunEnd _ _ | .txWait _ | .txHalt _ => 6
  | .ringTrynext _ _ => 7
  | .rxAddr _ | .rxData _ | .rxStop _ | .rxRsvd _ => 10
  | .wsAdv _ => 16
  | .uopAdv _ | .uopAdvread _ => 17
  | .ringCommit _ _ _ _ _ => 34
  | .fbFrame1 _ _ => nPre + 19
  | .fbFrame2 _ _ _ => nPre + 28
  | .fbFrame3 _ _ _ _ => nPre + 37
  | .fbFrame4 _ _ _ _ _ => nPre + 46

/-- Whether the table's bare word of `nbits` bits can be a word of this port: `nbits` is the port's width, or that width
in whole bytes. -/
def tableWidthFits (nbits width : Nat) : Bool := nbits = width ∨ nbits = (width + 7) / 8 * 8

/-- The port of a bare word of spec/opcode_table.json (DESIGN CHOICE, log entry 3: a bare word does not say which port it
is on, and the formats share words). The most specific format of the width that has the word; where several rows have
the very same word and width, the first row of the table. -/
def tablePort (nbits w : Nat) : Port :=
  if tableWidthFits nbits 1 ∧ w = 1 then .tick
  else if tableWidthFits nbits 2 ∧ w < 4 then .sym
  else if nbits = 1 then .enable
  else if tableWidthFits nbits 6 ∧ w < 64 then .txsel
  else if tableWidthFits nbits 7 then .qres
  else if tableWidthFits nbits 10 ∧ w < 1024 then .busEvt
  else if tableWidthFits nbits 16 then .dur
  else if tableWidthFits nbits 17 then .uop
  else if tableWidthFits nbits 34 then .commitw
  else .frame

/-- The operation the decoder reads from a bare word of spec/opcode_table.json, whose frames have 13 preamble bits. -/
def decodeTableWord (nbits w : Nat) : Option Instr :=
  match decode 13 ⟨tablePort nbits w, w⟩ with
  | .ok i => some i
  | .error _ => none

end Sys2Proof
end

