-- ==== Sys2Proof/Machine/State.lean ====
section
/-! DEFINITION. Machine/State.lean: everything the spec gives the machine (10_state.md R20 to R34), the environment that
drives it (00_scope.md R12), and the state after reset (10_state.md R33). -/

namespace Sys2Proof.Machine

/-- The slot memory as a list of cells in one canonical form: addresses strictly rising, no cell holding 0, which is what
an unlisted address reads as (the reset contents of 10_state.md R33). The address of a field of a slot is `cellAddr`. -/
abbrev Memory := List Host.Cell

/-- The whole content of a slot: four bytes and the usage count, 34 bits (10_state.md R25). -/
structure Slot where
  b0 : Byte
  b1 : Byte
  b2 : Byte
  b3 : Byte
  uc : Usage
  deriving DecidableEq, Repr

/-- `tx_phase` (10_state.md R28). -/
inductive Phase where
  /-- about to begin an iteration, code 0 -/
  | iter
  /-- about to execute the next micro-operation, code 1 -/
  | run
  /-- inside the busy-wait of `advance`, code 2 -/
  | wait
  /-- inside the delay of a HALTED iteration, code 3 -/
  | halt
  deriving DecidableEq, Repr

/-- The events of the trace (00_scope.md R14). -/
inductive Event where
  /-- `Tog(t, l)`: the output pin changed to level l at time t -/
  | tog (t : Nat) (l : Bool)
  /-- `Rel`: one pulse on `bus_release` -/
  | rel
  /-- `Kick`: one pulse on `wdt_kick` -/
  | kick
  deriving DecidableEq, Repr

/-- What a query or an expansion answered, on the interface it answers on. -/
inductive Answer where
  /-- nothing has been answered since reset -/
  | none
  /-- RING answers `tryNextReady`: the word `{valid, index[5:0]}` (30_encoding.md R94) -/
  | qres (w : BitVec 7)
  /-- BE answers a symbol: its micro-operations (41_bit_encoder.md R140 to R142) -/
  | symbol (prog : List UOp)
  /-- FB answers a packet: the frame's bits, first on the line first, and its micro-operations (42_frame_encoder.md R156,
  R158) -/
  | frame (bits : List Bool) (prog : List UOp)
  deriving DecidableEq, Repr

/-- One move the environment has lined up (00_scope.md R12, 30_encoding.md R105). -/
inductive Move where
  /-- a word is presented on a port or interface -/
  | word (pw : PortWord)
  /-- the control loop takes the step that TXSEL selects, if it is enabled (the script line `TXSTEP`) -/
  | tx
  deriving DecidableEq, Repr

/-- The state of the machine. -/
structure State where
  /-- the build's parameters; no step writes them (00_scope.md R7, R8) -/
  cfg : Config.Params
  /-- the free-running counter (R22) -/
  cnt : Ticks
  /-- the comparator's target (R22) -/
  cmp : Ticks
  /-- the latched match flag (R22, R27) -/
  mf : Bool
  /-- the level of the output line (R22) -/
  pin : Bool
  /-- data bytes of the packet in progress stored so far (R23) -/
  rxOff : Offset
  /-- the packet in progress has had a byte dropped (R23, R27) -/
  rxOvf : Bool
  /-- `writeCursor`: the slot RX is filling (R24) -/
  wr : Cursor
  /-- `readCursor`: the slot TX will read next (R24) -/
  rd : Cursor
  /-- the 42 slots (R25) -/
  mem : Memory
  /-- `fr_b[0..3]` and `fr_uc`, the latched packet (R26) -/
  fr : Slot
  /-- `fr_chk`, the latched packet's checksum (R26) -/
  frChk : Byte
  /-- where the control loop stands (R28) -/
  txPhase : Phase
  /-- the micro-operations that remain in this iteration (R28) -/
  txProg : List UOp
  /-- ticks that remain of the HALTED delay (R28) -/
  txHleft : Nat
  /-- the level on the input `enable` (R20); it belongs to the outside world and is not reset -/
  enable : Bool
  /-- ticks since the last reset, an observer's variable (R13, R34) -/
  now : Nat
  /-- the recorded outputs, oldest first, an observer's variable (R14, R34) -/
  trace : List Event
  /-- MODEL'S OWN (log entry 6): the latest answer of a query or expansion presented as an operation of its own -/
  answer : Answer
  /-- MODEL'S OWN (log entry 1): the moves lined up by the environment, the next one first -/
  pending : List Move
  /-- MODEL'S OWN (log entry 2): how many free choices of the next agent have been taken -/
  choices : Nat
  deriving DecidableEq, Repr

/-- No operation of this hardware faults: "No operation raises, traps or faults" (60_exceptions.md R230), so this type has
no constructor, and no run of the model ends in a fault. -/
inductive Fault where
  deriving DecidableEq, Repr

/-- The reasons a step has no meaning. -/
inductive Refusal where
  /-- An arm of `exec` that has no meaning yet; safe. No arm raises it now. -/
  | notModelled (mnemonic : String)
  /-- Raised by SYM_RSVD: symbol code 3 is reserved, "no rule produces it; a model given it should refuse" (30_encoding.md
  R103); safe. -/
  | reservedSymbol
  /-- Raised by `step` for a state outside the ranges of 10_state.md R32 and by an operation whose cursor names no slot:
  "a model handed such a state as a start state should refuse it"; safe, no reachable state is one. -/
  | outOfRange
  /-- Raised by `step` when a pending word selects no operation of its port; safe, the hardware's agents put no such word
  there. -/
  | undecodable (e : DecodeError)
  deriving DecidableEq, Repr

/-- What an operation answers. -/
abbrev Result := Host.Outcome State Fault Refusal

/-- The machine right after reset (10_state.md R33), in the default build of 00_scope.md R7 and R8, with no move lined
up. The spec gives `enable` no level after reset; here it is 0, HALTED (DESIGN CHOICE, log entry 5). -/
def State.reset : State :=
  { cfg := Config.Params.default
    cnt := 0
    cmp := 0
    mf := false
    pin := false
    rxOff := 0
    rxOvf := false
    wr := 0
    rd := 0
    mem := []
    fr := ⟨0, 0, 0, 0, 0⟩
    frChk := 0
    txPhase := .iter
    txProg := []
    txHleft := 0
    enable := false
    now := 0
    trace := []
    answer := .none
    pending := []
    choices := 0 }

end Sys2Proof.Machine
end

