-- ==== Sys2Proof/Machine/Operands.lean ====
section
/-! DEFINITION. Machine/Operands.lean: the arithmetic of the hardware and how its operands are assembled.

00_scope.md R10, 20_memory.md R80 (all arithmetic), 30_encoding.md R102 (operands), 41_bit_encoder.md R140 to R143 and
42_frame_encoder.md R151 to R158 (symbols, checksum, frame). -/

namespace Sys2Proof.Machine

/-- `add16`: the "wrapping addition" of a duration to the compare target (R10, R80). -/
def add16 (a b : Ticks) : Ticks := a + b

/-- `inc_cap`: a cursor's advance by one, modulo the capacity (R10, R80). -/
def incCap (c : Cursor) : Cursor := BitVec.ofNat 6 ((c.toNat + 1) % Config.cap)

/-- The usage count of a packet of `off` bytes: `rx_off - 1`, for 1 to 4 bytes (R102 (d), R193). -/
def usageOfOffset (off : Offset) : Usage := (off - 1).setWidth 2

/-- A field of a slot (R60). -/
inductive Field where
  | b0
  | b1
  | b2
  | b3
  | uc
  deriving DecidableEq, Repr

/-- The field's place among the five cells of its slot; the model's numbering (DESIGN CHOICE, log entry 7). -/
def Field.code : Field → Nat
  | .b0 => 0
  | .b1 => 1
  | .b2 => 2
  | .b3 => 3
  | .uc => 4

/-- `b[k]` for k = 0 to 3. -/
def Field.byte (k : Nat) : Field :=
  match k with
  | 0 => .b0
  | 1 => .b1
  | 2 => .b2
  | _ => .b3

/-- The cell that holds a field of slot i: the memory is addressed by a slot index and a field name only (R60). -/
def cellAddr (i : Cursor) (f : Field) : Nat := 5 * i.toNat + f.code

/-- The index names one of the 42 slots (R60, R32). -/
def slotExists (i : Cursor) : Bool := decide (i.toNat < Config.cap)

/-- The valid bytes of a slot, `b[0]` to `b[uc]`, in order of arrival (R25, R62). -/
def validBytes (p : Slot) : List Byte := [p.b0, p.b1, p.b2, p.b3].take (p.uc.toNat + 1)

/-- The XOR of a sequence of bytes (R80). -/
def xorBytes (ds : List Byte) : Byte := ds.foldl (· ^^^ ·) 0

/-- The checksum: the XOR of the valid bytes (R151); the others do not enter (R161). -/
def checksum (p : Slot) : Byte := xorBytes (validBytes p)

/-- `byteBits`: the bits of a byte, most significant first (R102 (c), R156). -/
def byteBits (v : Byte) : List Bool :=
  [v.getLsbD 7, v.getLsbD 6, v.getLsbD 5, v.getLsbD 4, v.getLsbD 3, v.getLsbD 2, v.getLsbD 1, v.getLsbD 0]

/-- `bitSym`: the symbol of a bit (R102 (b)). -/
def bitSym (v : Bool) : Sym := if v then .one else .zero

/-- `symDur`: the durations of a symbol (R143). -/
def symDur (c : Config.Params) : Sym → List Ticks
  | .one => [c.tOne, c.tOne]
  | .zero => [c.tZero, c.tZero]
  | .pause => [c.tPause]

/-- `symProg`: the micro-operations of a symbol (R143). -/
def symProg (c : Config.Params) (s : Sym) : List UOp := (symDur c s).map .adv

/-- A data byte on the line: its eight bits and one separator "0" (R154). -/
def dataGroup (v : Byte) : List Bool := byteBits v ++ [false]

/-- `frameBits`: preamble, start bit, data groups, checksum byte, stop bit, in order of transmission (R152 to R156). -/
def frameBits (nPre : Nat) (ds : List Byte) (k : Byte) : List Bool :=
  List.replicate nPre true ++ [false] ++ ds.flatMap dataGroup ++ byteBits k ++ [true]

/-- `frameProg`: each frame bit as the micro-operations of its symbol (R158). -/
def frameProg (c : Config.Params) (ds : List Byte) (k : Byte) : List UOp :=
  (frameBits c.nPre ds k).flatMap fun v => symProg c (bitSym v)

/-- The program of an iteration that sends packet p: its frame, then ADVREAD, then the pause (R212). -/
def packetProg (c : Config.Params) (p : Slot) : List UOp :=
  frameProg c (validBytes p) (checksum p) ++ .advread :: symProg c .pause

/-- The program of an iteration that finds the ring empty: the pause (R213). -/
def idleProg (c : Config.Params) : List UOp := symProg c .pause

end Sys2Proof.Machine
end

