-- ==== Sys2Proof/Machine/Flags.lean ====
section
/-! DEFINITION. Machine/Flags.lean: the two flags, the ready test, and the word that selects the control loop's step.

10_state.md R27 (the flags `mf` and `rx_ovf`), 40_waveform_scheduler.md R120 (the match), 43_packet_ring.md R170 (the ready
test), 30_encoding.md R98 (TXSEL), 10_state.md R32 (the ranges). -/

namespace Sys2Proof.Machine

/-- A match: the counter, after its increment, equals the compare target on all 16 bits (R120, R80). -/
def matchAt (cnt cmp : Ticks) : Bool := cnt == cmp

/-- `ready = (rd != wr)` (R170). -/
def State.ready (s : State) : Bool := s.rd != s.wr

/-- `tryNextReady`: the index of the next packet, or none (R170). -/
def State.tryNext (s : State) : Option Cursor := if s.ready then some s.rd else none

/-- The answer as a QRES word: `{valid, index}`, index written 0 for "none" (R94). -/
def qresWord (r : Option Cursor) : BitVec 7 :=
  match r with
  | some i => BitVec.ofNat 7 (64 + i.toNat)
  | none => 0

/-- `avail = (wr - rd) mod 42`: the occupancy the consumer sees (R177). -/
def State.avail (s : State) : Nat := (s.wr.toNat + Config.cap - s.rd.toNat) % Config.cap

/-- The numeric code of `tx_phase` (R28). -/
def Phase.code : Phase → Nat
  | .iter => 0
  | .run => 1
  | .wait => 2
  | .halt => 3

/-- `nonempty = (len(tx_prog) > 0)` (R98). -/
def State.nonempty (s : State) : Bool := !s.txProg.isEmpty

/-- `advread = (nonempty and head(tx_prog) = ADVREAD)` (R98). -/
def State.headAdvread (s : State) : Bool := s.txProg.head? == some .advread

/-- TXSEL, `{tx_phase[1:0], enable, ready, nonempty, advread}`: computed from the state and carried nowhere (R98). -/
def txselWord (s : State) : BitVec 6 :=
  BitVec.ofNat 6 (s.txPhase.code * 16 + s.enable.toNat * 8 + s.ready.toNat * 4 + s.nonempty.toNat * 2 + s.headAdvread.toNat)

/-- The control loop has an enabled step: TXSEL selects one whatever the state, and only TX_WAIT and TX_HALT ask for
more (R98). -/
def State.txEnabled (s : State) : Bool :=
  match s.txPhase with
  | .iter => true
  | .run => true
  | .wait => s.mf
  | .halt => s.txHleft == 0

/-- The ranges every reachable state keeps (R32). -/
def State.inRange (s : State) : Bool :=
  slotExists s.wr && slotExists s.rd && decide (s.rxOff.toNat ≤ 4) && (!s.rxOvf || s.rxOff == 4)
    && (match s.txPhase with
        | .iter => s.txProg.isEmpty && s.txHleft == 0
        | .run => s.txHleft == 0
        | .wait => s.txHleft == 0
        | .halt => s.txProg.isEmpty)

end Sys2Proof.Machine
end

