-- ==== Sys2Proof/Machine/Ops.lean ====
section
/-! DEFINITION. Machine/Ops.lean: the named operations over the slot memory and the registers, each said once.

20_memory.md R60 to R67 (the slot memory), 40_waveform_scheduler.md R120 to R122, 43_packet_ring.md R170 to R173,
44_async_receiver.md R190 to R196 (starting the handler and returning from it, 60_exceptions.md R235 and R236),
70_reset_and_hazards.md R261. The hardware takes no exceptions (60_exceptions.md R230); its nearest thing is the handler. -/

namespace Sys2Proof.Machine

/-- What an address the memory does not list reads as: the reset contents of every slot field (10_state.md R33). -/
def Memory.unlisted : Byte := 0

/-- One cell of the slot memory. -/
def Memory.read (m : Memory) (a : Nat) : Byte :=
  match m with
  | [] => Memory.unlisted
  | (k, v) :: t => if k = a then v else Memory.read t a

/-- The memory with cell a holding v; writing what an unlisted address reads as removes the entry. -/
def Memory.write (m : Memory) (a : Nat) (v : Byte) : Memory :=
  match m with
  | [] => if v = Memory.unlisted then [] else [(a, v)]
  | (k, w) :: t =>
    if k < a then (k, w) :: Memory.write t a v
    else if k = a then (if v = Memory.unlisted then t else (a, v) :: t)
    else if v = Memory.unlisted then (k, w) :: t
    else (a, v) :: (k, w) :: t

/-- The addresses of a list of cells rise strictly and all lie above `lo` or at it, and no cell holds the unlisted value. -/
def Memory.risesFrom (lo : Nat) (m : Memory) : Bool :=
  match m with
  | [] => true
  | (k, v) :: t => decide (lo ≤ k) && v != Memory.unlisted && Memory.risesFrom (k + 1) t

/-- Every listed cell belongs to one of the 42 slots, and a usage count has two bits (10_state.md R25). -/
def Memory.cellsExist (m : Memory) : Bool :=
  m.all fun c => decide (c.1 < 5 * Config.cap) && (c.1 % 5 != 4 || decide (c.2.toNat < 4))

/-- The canonical form of the slot memory. -/
def Memory.wf (m : Memory) : Bool := Memory.risesFrom 0 m && Memory.cellsExist m

/-- `MemRead(i, b[k])` and the others at once: the whole slot (20_memory.md R64, R67). -/
def readSlot (m : Memory) (i : Cursor) : Slot :=
  { b0 := m.read (cellAddr i .b0)
    b1 := m.read (cellAddr i .b1)
    b2 := m.read (cellAddr i .b2)
    b3 := m.read (cellAddr i .b3)
    uc := (m.read (cellAddr i .uc)).setWidth 2 }

/-- `MemWrite(i, b[k], d)` (20_memory.md R67). -/
def writeByte (m : Memory) (i : Cursor) (k : Nat) (d : Byte) : Memory := m.write (cellAddr i (Field.byte k)) d

/-- `MemWrite(i, uc, u)` (20_memory.md R67). -/
def writeUsage (m : Memory) (i : Cursor) (u : Usage) : Memory := m.write (cellAddr i .uc) (u.setWidth 8)

/-- All five fields of slot i set to 0 (43_packet_ring.md R172). -/
def clearSlot (m : Memory) (i : Cursor) : Memory :=
  ((((m.write (cellAddr i .b0) 0).write (cellAddr i .b1) 0).write (cellAddr i .b2) 0).write (cellAddr i .b3) 0).write
    (cellAddr i .uc) 0

/-- `emit E` (00_scope.md R11). -/
def State.emit (e : Event) (s : State) : State := { s with trace := s.trace ++ [e] }

/-- A step that touches slot i: it has its effect if the slot exists, and refuses the state otherwise (10_state.md R32). -/
def withSlot (i : Cursor) (t : State) : Result := if slotExists i then .next t else .refused .outOfRange

/-- The counter's half of a tick: count, and on a match latch the flag, toggle the pin and record it
(40_waveform_scheduler.md R120). -/
def State.countTick (s : State) : State :=
  if matchAt (s.cnt + 1) s.cmp then
    { s with cnt := s.cnt + 1, now := s.now + 1, mf := true, pin := !s.pin,
             trace := s.trace ++ [.tog (s.now + 1) (!s.pin)] }
  else { s with cnt := s.cnt + 1, now := s.now + 1 }

/-- The delay's half of a tick: `tx_hleft` counts down and stops at 0 (R120, R80). -/
def State.countDelay (s : State) : State := { s with txHleft := s.txHleft - 1 }

/-- `WS_ADV(d)`: move the compare target (40_waveform_scheduler.md R121). -/
def State.advanceTarget (d : Ticks) (s : State) : State := { s with cmp := add16 s.cmp d }

/-- The effect of a completed `WS_WAIT`: the match is consumed (40_waveform_scheduler.md R122). -/
def State.consumeMatch (s : State) : State := { s with mf := false }

/-- `RING_ADVREAD`: clear the slot at the read cursor and advance the cursor (43_packet_ring.md R172). -/
def State.advanceRead (s : State) : State := { s with mem := clearSlot s.mem s.rd, rd := incCap s.rd }

/-- `RING_COMMIT`: write the usage count of the slot at the write cursor and advance the cursor (43_packet_ring.md
R173). -/
def State.commit (u : Usage) (s : State) : State := { s with mem := writeUsage s.mem s.wr u, wr := incCap s.wr }

/-- Store a data byte in the slot at the write cursor, at the per-byte offset (44_async_receiver.md R192). -/
def State.appendByte (d : Byte) (s : State) : State :=
  { s with mem := writeByte s.mem s.wr s.rxOff.toNat d, rxOff := s.rxOff + 1 }

/-- The receiver begins a new packet (44_async_receiver.md R193). -/
def State.restartPacket (s : State) : State := { s with rxOff := 0, rxOvf := false }

/-- Latch the packet at the read cursor and compute its checksum (42_frame_encoder.md R150, R151). -/
def State.latchPacket (s : State) : State :=
  { s with fr := readSlot s.mem s.rd, frChk := checksum (readSlot s.mem s.rd) }

/-- The control loop starts working off a program (45_control_loop.md R212, R213). -/
def State.startProg (p : List UOp) (s : State) : State := { s with txProg := p, txPhase := .run }

/-- The micro-operation ADV(d) at the head of the program: move the target, drop the head, wait
(45_control_loop.md R214). -/
def State.runAdv (d : Ticks) (s : State) : State :=
  { s with cmp := add16 s.cmp d, txProg := s.txProg.tail, txPhase := .wait }

/-- The micro-operation ADVREAD at the head of the program: RING_ADVREAD, drop the head, go on running
(45_control_loop.md R214). -/
def State.runAdvread (s : State) : State :=
  { s with mem := clearSlot s.mem s.rd, rd := incCap s.rd, txProg := s.txProg.tail }

/-- The control loop goes to another phase. -/
def State.goto (p : Phase) (s : State) : State := { s with txPhase := p }

/-- An answer is given on its interface (log entry 6). -/
def State.respond (a : Answer) (s : State) : State := { s with answer := a }

/-- An operation that the state does not enable: no step is taken, nothing changes (00_scope.md R12, log entry 8). -/
def State.noStep (s : State) : Result := .next s

/-- Every register and every slot field at its reset value, observers cleared, the build and the environment as they are
(10_state.md R33, 70_reset_and_hazards.md R261). -/
def State.afterReset (s : State) : State :=
  { s with
    cnt := s.cfg.cntReset
    cmp := s.cfg.cmpReset
    mf := false
    pin := s.cfg.pinReset
    rxOff := 0
    rxOvf := false
    wr := 0
    rd := 0
    mem := []
    fr := ⟨0, 0, 0, 0, 0⟩
    frChk := 0
    txPhase := .iter
    txProg := []
    txHleft := 0
    now := 0
    trace := []
    answer := .none }

end Sys2Proof.Machine
end

