-- ==== Sys2Proof/Machine/BitEnc.lean ====
section
/-! DEFINITION. Machine/BitEnc.lean: the BitEncoder family, BE_ZERO, BE_ONE, BE_PAUSE and the reserved symbol
(41_bit_encoder.md). A symbol is answered with its micro-operations; no register is read or written (R145). -/

namespace Sys2Proof.Machine

/-- BE_ZERO (R141). -/
def execBeZero (s : State) : Result := .next (s.respond (.symbol (symProg s.cfg .zero)))

/-- BE_ONE (R140). -/
def execBeOne (s : State) : Result := .next (s.respond (.symbol (symProg s.cfg .one)))

/-- BE_PAUSE (R142). -/
def execBePause (s : State) : Result := .next (s.respond (.symbol (symProg s.cfg .pause)))

/-- SYM_RSVD (R103 (b)): "no rule produces it; a model given it should refuse". -/
def execSymRsvd (_ : State) : Result := .refused .reservedSymbol

end Sys2Proof.Machine
end

