-- ==== Sys2Proof/Machine/Control.lean ====
section
/-! DEFINITION. Machine/Control.lean: the ControlLoop family, TX_ITER_*, TX_RUN_*, TX_WAIT, TX_HALT, and the two
micro-operations (45_control_loop.md).

Each step is taken in the states its TXSEL pattern names (30_encoding.md R98); in any other state the control loop has no
such step and nothing changes (log entry 8). -/

namespace Sys2Proof.Machine

/-- TX_ITER_HALTED (R211). -/
def execTxIterHalted (_x : BitVec 3) (s : State) : Result :=
  if s.txPhase = .iter ∧ s.enable = false then
    .next (State.emit .kick { s with txPhase := .halt, txHleft := s.cfg.haltDelay })
  else s.noStep

/-- TX_ITER_READY (R212): kick, latch, checksum, build the program. -/
def execTxIterReady (_x : BitVec 2) (s : State) : Result :=
  if s.txPhase = .iter ∧ s.enable = true ∧ s.ready = true then
    withSlot s.rd ((s.latchPacket.startProg (packetProg s.cfg (readSlot s.mem s.rd))).emit .kick)
  else s.noStep

/-- TX_ITER_EMPTY (R213). -/
def execTxIterEmpty (_x : BitVec 2) (s : State) : Result :=
  if s.txPhase = .iter ∧ s.enable = true ∧ s.ready = false then .next ((s.startProg (idleProg s.cfg)).emit .kick)
  else s.noStep

/-- TX_RUN_ADV (R214): the head of the program is ADV(d); `mf` is not tested (40_waveform_scheduler.md R124). -/
def execTxRunAdv (_x : BitVec 2) (s : State) : Result :=
  match s.txPhase, s.txProg with
  | .run, .adv d :: _ => .next (s.runAdv d)
  | _, _ => s.noStep

/-- TX_RUN_ADVREAD (R214): the head of the program is ADVREAD. -/
def execTxRunAdvread (_x : BitVec 2) (s : State) : Result :=
  match s.txPhase, s.txProg with
  | .run, .advread :: _ => withSlot s.rd s.runAdvread
  | _, _ => s.noStep

/-- TX_RUN_END (R214): the program is empty. -/
def execTxRunEnd (_x1 : BitVec 2) (_x0 : BitVec 1) (s : State) : Result :=
  match s.txPhase, s.txProg with
  | .run, [] => .next (s.goto .iter)
  | _, _ => s.noStep

/-- TX_WAIT (R215): enabled only when `mf = 1`. -/
def execTxWait (_x : BitVec 4) (s : State) : Result :=
  if s.txPhase = .wait ∧ s.mf = true then .next (s.consumeMatch.goto .run) else s.noStep

/-- TX_HALT (R216): enabled only when `tx_hleft = 0`. -/
def execTxHalt (_x : BitVec 4) (s : State) : Result :=
  if s.txPhase = .halt ∧ s.txHleft = 0 then .next (s.goto .iter) else s.noStep

/-- UOP_ADV(d) (R214, R97): the micro-operation ADV(d), executed when it stands at the head of the program. -/
def execUopAdv (d : Ticks) (s : State) : Result :=
  if s.txPhase = .run ∧ s.txProg.head? = some (.adv d) then .next (s.runAdv d) else s.noStep

/-- UOP_ADVREAD (R214, R97): the micro-operation ADVREAD, executed when it stands at the head of the program; the low 16
bits of its word are ignored. -/
def execUopAdvread (_x : BitVec 16) (s : State) : Result :=
  if s.txPhase = .run ∧ s.txProg.head? = some .advread then withSlot s.rd s.runAdvread else s.noStep

end Sys2Proof.Machine
end

