-- ==== Sys2Proof/Machine/Frame.lean ====
section
/-! DEFINITION. Machine/Frame.lean: the FrameBuilder family, FB_FRAME1 to FB_FRAME4 (42_frame_encoder.md R156, R158).

The operation is the expansion of the packet its word carries; it changes no register (R159) and checks nothing (R160). -/

namespace Sys2Proof.Machine

/-- FB answers the data bytes `ds` and the checksum k with the frame's bits and its micro-operations (R156, R158). -/
def State.respondFrame (ds : List Byte) (k : Byte) (s : State) : State :=
  s.respond (.frame (frameBits s.cfg.nPre ds k) (frameProg s.cfg ds k))

/-- FB_FRAME1 (R156, n = 1). -/
def execFbFrame1 (a k : Byte) (s : State) : Result := .next (s.respondFrame [a] k)

/-- FB_FRAME2 (R156, n = 2). -/
def execFbFrame2 (a b k : Byte) (s : State) : Result := .next (s.respondFrame [a, b] k)

/-- FB_FRAME3 (R156, n = 3). -/
def execFbFrame3 (a b c k : Byte) (s : State) : Result := .next (s.respondFrame [a, b, c] k)

/-- FB_FRAME4 (R156, n = 4). -/
def execFbFrame4 (a b c d k : Byte) (s : State) : Result := .next (s.respondFrame [a, b, c, d] k)

end Sys2Proof.Machine
end

