-- ==== Sys2Proof/Machine/Outside.lean ====
section
/-! DEFINITION. Machine/Outside.lean: the outside world's own steps, ENV_ENABLE (45_control_loop.md R218) and ENV_RESET
(70_reset_and_hazards.md R261). -/

namespace Sys2Proof.Machine

/-- ENV_ENABLE(e) (R218). -/
def execEnvEnable (e : Bool) (s : State) : Result := .next { s with enable := e }

/-- ENV_RESET (R261): enabled in any state. -/
def execEnvReset (s : State) : Result := .next s.afterReset

end Sys2Proof.Machine
end

