-- ==== Sys2Proof/Machine/Receiver.lean ====
section
/-! DEFINITION. Machine/Receiver.lean: the AsyncPacketReceiver family, RX_ADDR, RX_DATA, RX_STOP, RX_RSVD
(44_async_receiver.md). Each is one run of the handler from start to return; it saves and restores nothing
(60_exceptions.md R235, R236). -/

namespace Sys2Proof.Machine

/-- RX_ADDR(a) (R191): the byte is not stored and not compared; flow control is released. -/
def execRxAddr (_a : Byte) (s : State) : Result := .next (s.emit .rel)

/-- RX_DATA(d) (R192, R194): store the byte, or drop it if the slot is full; flow control is released in both cases. -/
def execRxData (d : Byte) (s : State) : Result :=
  if s.rxOff.toNat < Config.slotBytes then withSlot s.wr ((s.appendByte d).emit .rel)
  else .next (State.emit .rel { s with rxOvf := true })

/-- RX_STOP (R193): discard an over-long packet, ignore an empty one (R195), commit any other. -/
def execRxStop (_x : Byte) (s : State) : Result :=
  if s.rxOvf then .next s.restartPacket
  else if s.rxOff.toNat = 0 then .next s
  else withSlot s.wr { s.commit (usageOfOffset s.rxOff) with rxOff := 0 }

/-- RX_RSVD (R196): nothing changes and no `Rel` is emitted. -/
def execRxRsvd (_x : Byte) (s : State) : Result := .next s

end Sys2Proof.Machine
end

