-- ==== Sys2Proof/Machine/Ring.lean ====
section
/-! DEFINITION. Machine/Ring.lean: the PacketRing family, RING_TRYNEXT, RING_ADVREAD, RING_COMMIT (43_packet_ring.md). -/

namespace Sys2Proof.Machine

/-- RING_TRYNEXT (R170): the answer is computed from the cursors; v and i are the fields of the answer word, not inputs
(R94), and no register changes. -/
def execRingTrynext (_v : Bool) (_i : Cursor) (s : State) : Result := .next (s.respond (.qres (qresWord s.tryNext)))

/-- RING_ADVREAD (R172). -/
def execRingAdvread (s : State) : Result := withSlot s.rd s.advanceRead

/-- RING_COMMIT (R173): only the usage count is written; the bytes of the word describe what the slot already holds
(R93). -/
def execRingCommit (u : Usage) (_d _c _b _a : Byte) (s : State) : Result := withSlot s.wr (s.commit u)

end Sys2Proof.Machine
end

