-- ==== Sys2Proof/Machine/Wave.lean ====
section
/-! DEFINITION. Machine/Wave.lean: the WaveformScheduler family, WS_TICK, WS_ADV, WS_WAIT (40_waveform_scheduler.md). -/

namespace Sys2Proof.Machine

/-- WS_TICK (R120). -/
def execWsTick (s : State) : Result := .next s.countTick.countDelay

/-- WS_ADV(d) (R121). -/
def execWsAdv (d : Ticks) (s : State) : Result := .next (s.advanceTarget d)

/-- WS_WAIT (R122): "Enabled only when `mf = 1`"; while `mf = 0` the caller busy-waits and nothing changes. -/
def execWsWait (s : State) : Result := if s.mf then .next s.consumeMatch else s.noStep

end Sys2Proof.Machine
end

