-- ==== Sys2Proof/Machine/Dispatch.lean ====
section
/-! DEFINITION. Machine/Dispatch.lean: each operation's meaning, one arm per constructor of Instr. -/

namespace Sys2Proof.Machine

def exec (i : Instr) (s : State) : Host.Outcome State Fault Refusal :=
  match i with
  | .wsTick => Sys2Proof.Machine.execWsTick s
  | .wsAdv d => Sys2Proof.Machine.execWsAdv d s
  | .wsWait => Sys2Proof.Machine.execWsWait s
  | .beZero => Sys2Proof.Machine.execBeZero s
  | .beOne => Sys2Proof.Machine.execBeOne s
  | .bePause => Sys2Proof.Machine.execBePause s
  | .symRsvd => Sys2Proof.Machine.execSymRsvd s
  | .fbFrame1 a k => Sys2Proof.Machine.execFbFrame1 a k s
  | .fbFrame2 a b k => Sys2Proof.Machine.execFbFrame2 a b k s
  | .fbFrame3 a b c k => Sys2Proof.Machine.execFbFrame3 a b c k s
  | .fbFrame4 a b c d k => Sys2Proof.Machine.execFbFrame4 a b c d k s
  | .ringTrynext v idx => Sys2Proof.Machine.execRingTrynext v idx s
  | .ringAdvread => Sys2Proof.Machine.execRingAdvread s
  | .ringCommit u d c b a => Sys2Proof.Machine.execRingCommit u d c b a s
  | .rxAddr a => Sys2Proof.Machine.execRxAddr a s
  | .rxData d => Sys2Proof.Machine.execRxData d s
  | .rxStop x => Sys2Proof.Machine.execRxStop x s
  | .rxRsvd x => Sys2Proof.Machine.execRxRsvd x s
  | .txIterHalted x => Sys2Proof.Machine.execTxIterHalted x s
  | .txIterReady x => Sys2Proof.Machine.execTxIterReady x s
  | .txIterEmpty x => Sys2Proof.Machine.execTxIterEmpty x s
  | .txRunAdv x => Sys2Proof.Machine.execTxRunAdv x s
  | .txRunAdvread x => Sys2Proof.Machine.execTxRunAdvread x s
  | .txRunEnd x1 x0 => Sys2Proof.Machine.execTxRunEnd x1 x0 s
  | .txWait x => Sys2Proof.Machine.execTxWait x s
  | .txHalt x => Sys2Proof.Machine.execTxHalt x s
  | .envEnable e => Sys2Proof.Machine.execEnvEnable e s
  | .envReset => Sys2Proof.Machine.execEnvReset s
  | .uopAdv d => Sys2Proof.Machine.execUopAdv d s
  | .uopAdvread x => Sys2Proof.Machine.execUopAdvread x s

end Sys2Proof.Machine
end

