-- ==== Sys2Proof/Machine/Fetch.lean ====
section
/-! DEFINITION. Machine/Fetch.lean: which operation the next step runs.

The hardware has no program memory (20_memory.md R75). Its next operation is the next word the environment or an agent puts
on a port (00_scope.md R12); for the control loop it is the word TXSEL, computed from the state (30_encoding.md R98). -/

namespace Sys2Proof.Machine

/-- The move of an agent's choice (00_scope.md R12, 30_encoding.md R105). -/
def moveOfChoice : Config.Choice → Move
  | .tick => .word ⟨.tick, 1⟩
  | .bus w => .word ⟨.busEvt, w.toNat⟩
  | .tx => .tx
  | .enable v => .word ⟨.enable, v.toNat⟩
  | .reset => .word ⟨.rst, 1⟩

/-- The next move and the state without it: the first pending move; where none is pending, a free choice among the agents
of R12 (log entry 2). -/
def nextMove (s : State) : Move × State :=
  match s.pending with
  | m :: rest => (m, { s with pending := rest })
  | [] => (moveOfChoice (Config.freeChoice s.choices), { s with choices := s.choices + 1 })

/-- The word a move presents; the control loop's is TXSEL (R98). -/
def wordOfMove (m : Move) (s : State) : PortWord :=
  match m with
  | .word pw => pw
  | .tx => ⟨.txsel, (txselWord s).toNat⟩

/-- The operation the next step runs, and the state it runs in. -/
def fetch (s : State) : Except DecodeError Instr × State :=
  let p := nextMove s
  (decode s.cfg.nPre (wordOfMove p.1 s), p.2)

/-- The state with a move put before all pending ones. -/
def State.present (m : Move) (s : State) : State := { s with pending := m :: s.pending }

/-- What a control loop or micro-operation word takes, so that the state selects it: the fixed bits of its TXSEL pattern
(R98), the further enabling conditions of TX_WAIT and TX_HALT, and the micro-operation at the head of the program
(R214). An operand TX_RUN_ADV takes from the program and the word does not give is 0. Other words take nothing. -/
def State.selecting (i : Instr) (s : State) : State :=
  match i with
  | .txIterHalted _ => { s with txPhase := .iter, txProg := [], txHleft := 0, enable := false }
  | .txIterReady _ =>
    { s with txPhase := .iter, txProg := [], txHleft := 0, enable := true,
             wr := if s.rd = s.wr then incCap s.rd else s.wr }
  | .txIterEmpty _ => { s with txPhase := .iter, txProg := [], txHleft := 0, enable := true, wr := s.rd }
  | .txRunAdv _ => { s with txPhase := .run, txProg := .adv 0 :: s.txProg, txHleft := 0 }
  | .txRunAdvread _ => { s with txPhase := .run, txProg := .advread :: s.txProg, txHleft := 0 }
  | .txRunEnd _ _ => { s with txPhase := .run, txProg := [], txHleft := 0 }
  | .txWait _ => { s with txPhase := .wait, mf := true, txHleft := 0 }
  | .txHalt _ => { s with txPhase := .halt, txProg := [], txHleft := 0 }
  | .uopAdv d => { s with txPhase := .run, txProg := .adv d :: s.txProg, txHleft := 0 }
  | .uopAdvread _ => { s with txPhase := .run, txProg := .advread :: s.txProg, txHleft := 0 }
  | .wsWait => { s with mf := true }
  | .wsTick | .wsAdv _ | .beZero | .beOne | .bePause | .symRsvd => s
  | .fbFrame1 _ _ | .fbFrame2 _ _ _ | .fbFrame3 _ _ _ _ | .fbFrame4 _ _ _ _ _ => s
  | .ringTrynext _ _ | .ringAdvread | .ringCommit _ _ _ _ _ => s
  | .rxAddr _ | .rxData _ | .rxStop _ | .rxRsvd _ | .envEnable _ | .envReset => s

/-- The state whose next step runs the operation of a bare word of the opcode table (log entry 3): its word, in this
build's preamble length, is the next move, and the state selects it. A word that no operation has is presented as it is. -/
def State.withTableWord (s : State) (nbits w : Nat) : State :=
  match decodeTableWord nbits w with
  | some i => (s.selecting i).present (.word (encode s.cfg.nPre i))
  | none => s.present (.word ⟨tablePort nbits w, w⟩)

end Sys2Proof.Machine
end

