-- ==== Sys2Proof/Machine/Step.lean ====
section
/-! DEFINITION. Machine/Step.lean: one step of the machine (00_scope.md R12): one agent's move, atomically. -/

namespace Sys2Proof.Machine

/-- One step: the next move's operation, run to its end. A state outside the ranges of 10_state.md R32 is refused as a
start state, and a word that selects no operation is refused by name. -/
def step (s : State) : Host.Outcome State Fault Refusal :=
  if s.inRange then
    match fetch s with
    | (.ok i, t) => exec i t
    | (.error e, _) => .refused (.undecodable e)
  else .refused .outOfRange

/-- The state whose next step runs the operation of a bare word of spec/opcode_table.json (log entry 3). -/
def State.withFetchWord (s : State) (nbits w : Nat) : State := s.withTableWord nbits w

end Sys2Proof.Machine
end

