-- ==== Sys2Proof/Machine/Runs.lean ====
section
/-! DEFINITION. Machine/Runs.lean: runs of the machine without end, the two assumptions 00_scope.md R13 makes of every run,
and the latency. That every run of `step` meets both is `isRun_fair` of Laws/Runs.lean: the free choices are fair (log entry
2), and what the environment has lined up is a finite list. -/

namespace Sys2Proof.Machine

/-- A run: states of which each is what a step makes of the one before. -/
def IsRun (r : Nat → State) : Prop := ∀ n, step (r n) = .next (r (n + 1))

/-- The word that the next step of a state decodes. -/
def State.nextWord (s : State) : PortWord := wordOfMove (nextMove s).1 s

/-- The next step of a state is `TICK`. -/
abbrev State.takesTick (s : State) : Prop := s.nextWord = ⟨.tick, 1⟩

/-- The next step of a state is the control loop's, and it has one: it is enabled, and the word presented is TXSEL. -/
abbrev State.takesTx (s : State) : Prop := s.txEnabled = true ∧ s.nextWord = ⟨.txsel, (txselWord s).toNat⟩

/-- "`TICK` occurs infinitely often" (R13). -/
def TicksForever (r : Nat → State) : Prop := ∀ n, ∃ m, n ≤ m ∧ (r m).takesTick

/-- "a TX step that stays enabled is eventually taken (weak fairness)" (R13). -/
def WeaklyFair (r : Nat → State) : Prop :=
  ∀ n, (∀ m, n ≤ m → (r m).txEnabled = true) → ∃ m, n ≤ m ∧ (r m).takesTx

/-- What R13 assumes of every run. -/
def FairRun (r : Nat → State) : Prop := IsRun r ∧ TicksForever r ∧ WeaklyFair r

/-- How many ticks pass from step m of a run to step n: the latency, if these are two steps of the control loop (R13). -/
def latency (r : Nat → State) (m n : Nat) : Nat := (List.range' m (n - m)).countP fun k => decide (r k).takesTick

end Sys2Proof.Machine
end

