-- ==== Sys2Proof/Machine/StageRegs.lean ====
section
/-! DEFINITION. Machine/StageRegs.lean: the registers an implementation can hold in place of the program `tx_prog`
(10_state.md R35, informative), with the micro-operation they stand for and the registers after it. -/

namespace Sys2Proof.Machine

/-- The stage of an iteration that sends a packet (R35). -/
inductive Stage where
  | pre
  | start
  | data
  | sep
  | chk
  | stop
  | advread
  | pause
  | done
  deriving DecidableEq, Repr

/-- The registers of R35: the stage, preamble bits left, byte index 0 to 3, bit index 7 down to 0, half flag. -/
structure StageRegs where
  stage : Stage
  preLeft : Nat
  byteIdx : Nat
  bitIdx : Nat
  half : Bool
  deriving DecidableEq, Repr

/-- The registers at the beginning of a frame of a build with `nPre` preamble bits. -/
def StageRegs.begin (nPre : Nat) : StageRegs :=
  { stage := if nPre = 0 then .start else .pre, preLeft := nPre, byteIdx := 0, bitIdx := 7, half := false }

/-- Byte j of a packet. -/
def byteOf (p : Slot) (j : Nat) : Byte :=
  match j with
  | 0 => p.b0
  | 1 => p.b1
  | 2 => p.b2
  | _ => p.b3

/-- The duration of a frame bit (R143, R102). -/
def bitDur (c : Config.Params) (v : Bool) : Ticks := if v then c.tOne else c.tZero

/-- The micro-operation the registers stand for, none at the end of the iteration (R35). -/
def StageRegs.head (c : Config.Params) (p : Slot) (k : Byte) (r : StageRegs) : Option UOp :=
  match r.stage with
  | .pre => some (.adv (bitDur c true))
  | .start => some (.adv (bitDur c false))
  | .data => some (.adv (bitDur c ((byteOf p r.byteIdx).getLsbD r.bitIdx)))
  | .sep => some (.adv (bitDur c false))
  | .chk => some (.adv (bitDur c (k.getLsbD r.bitIdx)))
  | .stop => some (.adv (bitDur c true))
  | .advread => some .advread
  | .pause => some (.adv c.tPause)
  | .done => none

/-- The registers after the second half of a frame bit: the next bit of the frame (R100). -/
def StageRegs.nextBit (p : Slot) (r : StageRegs) : StageRegs :=
  match r.stage with
  | .pre => if r.preLeft ≤ 1 then { r with stage := .start, preLeft := 0 } else { r with preLeft := r.preLeft - 1 }
  | .start => { r with stage := .data, byteIdx := 0, bitIdx := 7 }
  | .data => if r.bitIdx = 0 then { r with stage := .sep } else { r with bitIdx := r.bitIdx - 1 }
  | .sep =>
    if r.byteIdx < p.uc.toNat then { r with stage := .data, byteIdx := r.byteIdx + 1, bitIdx := 7 }
    else { r with stage := .chk, bitIdx := 7 }
  | .chk => if r.bitIdx = 0 then { r with stage := .stop } else { r with bitIdx := r.bitIdx - 1 }
  | .stop => { r with stage := .advread }
  | .advread => { r with stage := .pause }
  | .pause => { r with stage := .done }
  | .done => r

/-- The registers after the micro-operation they stand for: each frame bit has two halves (R101). -/
def StageRegs.next (p : Slot) (r : StageRegs) : StageRegs :=
  match r.stage with
  | .advread => { r with stage := .pause }
  | .pause => { r with stage := .done }
  | .done => r
  | .pre | .start | .data | .sep | .chk | .stop =>
    if r.half then StageRegs.nextBit p { r with half := false } else { r with half := true }

/-- The program the registers denote: the head they stand for, then what the next registers denote, for at most `fuel`
micro-operations (R35). -/
def StageRegs.denote (c : Config.Params) (p : Slot) (k : Byte) (fuel : Nat) (r : StageRegs) : List UOp :=
  match fuel with
  | 0 => []
  | n + 1 =>
    match r.head c p k with
    | none => []
    | some u => u :: StageRegs.denote c p k n (r.next p)

end Sys2Proof.Machine
end

