-- ==== Sys2Proof/Machine/Stimulus.lean ====
section
/-! DEFINITION. Machine/Stimulus.lean: the stimulus scripts of 30_encoding.md R105 and R106 and the eager schedule of
00_scope.md R15, run through `step`. A script is the environment's; the machine itself does not read one.

R15 and R105 both say when the control loop steps in an eager run, and not the same: R15 lets it step once at each value of
`now`, after all the steps the script places there, and R105 after every line. Both are written here (`Eager`, log entry
15). -/

namespace Sys2Proof.Machine

/-- A line of a script (R105), and the two pseudo-lines (R106). -/
inductive Line where
  /-- `.eager`: after each line all enabled steps of the control loop are taken -/
  | eager
  /-- `.manual`: the control loop steps only where a `TXSTEP` line says so -/
  | manual
  /-- `RESET` -/
  | reset
  /-- `ENABLE v` -/
  | enable (v : Bool)
  /-- `ADDR a` -/
  | addr (a : Byte)
  /-- `DATA d` -/
  | data (d : Byte)
  /-- `STOP` -/
  | stop
  /-- `RSVD` -/
  | rsvd
  /-- `TICK n` -/
  | tick (n : Nat)
  /-- `TXSTEP n` -/
  | txstep (n : Nat)
  /-- `PKT a, d0, ..., dm` -/
  | pkt (a : Byte) (ds : List Byte)
  /-- `UNTIL t` -/
  | untilTime (t : Nat)
  deriving DecidableEq, Repr

/-- The spec's two accounts of the eager schedule (log entry 15). -/
inductive Eager where
  /-- 00_scope.md R15: at each value of `now` the ENV and RX steps placed there, then the control loop, then one `TICK` -/
  | perTime
  /-- 30_encoding.md R105: the control loop after every line and after each tick -/
  | perLine
  deriving DecidableEq, Repr

/-- What runs a script: which account `.eager` stands for, whether it is in force, whether a `RESET` line has been met, and
the state. -/
structure Bench where
  account : Eager
  eager : Bool
  started : Bool
  state : State
  deriving DecidableEq, Repr

/-- The moves of a line, in a state at time `now`: a word per event, `TICK` n times, `PKT` as its transaction, `UNTIL t` as
`TICK (t - now)` (R105, R106). DESIGN CHOICE (log entry 17): `UNTIL t` with t earlier than `now`, where R106 gives the
count of ticks no meaning, takes no tick and is no error. -/
def Line.moves (now : Nat) : Line → List Move
  | .eager | .manual => []
  | .reset => [.word (encode 13 .envReset)]
  | .enable v => [.word (encode 13 (.envEnable v))]
  | .addr a => [.word (encode 13 (.rxAddr a))]
  | .data d => [.word (encode 13 (.rxData d))]
  | .stop => [.word (encode 13 (.rxStop 0))]
  | .rsvd => [.word (encode 13 (.rxRsvd 0))]
  | .tick n => List.replicate n (.word (encode 13 .wsTick))
  | .txstep n => List.replicate n .tx
  | .pkt a ds => .word (encode 13 (.rxAddr a)) :: ds.map (fun d => .word (encode 13 (.rxData d))) ++ [.word (encode 13 (.rxStop 0))]
  | .untilTime t => List.replicate (t - now) (.word (encode 13 .wsTick))

/-- One move through the machine's own step; none if the step stops, or if a `TXSTEP` finds no enabled step ("an error if
none is enabled", R105). -/
def stepMove (m : Move) (s : State) : Option State :=
  if m = .tx ∧ s.txEnabled = false then none
  else
    match step (s.present m) with
    | .next t => some t
    | .fault _ => none
    | .refused _ => none

/-- Steps of the control loop until none is enabled (R15); no result if `fuel` steps do not get there. -/
def settleIn (fuel : Nat) (s : State) : Option State :=
  if s.txEnabled then
    match fuel with
    | 0 => none
    | n + 1 => (stepMove .tx s).bind (settleIn n)
  else some s

/-- More steps than the control loop ever takes without a tick between them, with a HALTED delay of at least 1: a program
built by R212 or R213 and at most one stale match (40_waveform_scheduler.md R124) let it take at most 7. A longer chain gives
no result (DESIGN CHOICE, log entry 15). -/
def settleFuel : Nat := 16

/-- "TX steps are taken until none is enabled" (R15). -/
def settle (s : State) : Option State := settleIn settleFuel s

/-- Moves one after another, the control loop taking no step of its own. -/
def takeMoves (ms : List Move) (s : State) : Option State :=
  match ms with
  | [] => some s
  | m :: rest => (stepMove m s).bind (takeMoves rest)

/-- One value of `now` under the eager schedule, up to its `TICK`: "first the ENV and RX steps the script places at that time
are taken in script order; then TX steps are taken until none is enabled" (R15). -/
def eagerTime (placed : List Move) (s : State) : Option State := (takeMoves placed s).bind settle

/-- A run under the eager schedule (R15): the ENV and RX steps placed at each successive value of `now`, from the present one
on, one `TICK` between a value and the next, and none after the last. -/
def eagerRun (placed : List (List Move)) (s : State) : Option State :=
  match placed with
  | [] => some s
  | [ms] => eagerTime ms s
  | ms :: rest => ((eagerTime ms s).bind (stepMove (.word (encode 13 .wsTick)))).bind (eagerRun rest)

/-- The control loop's steps, if the condition for them holds. -/
def settleIf (c : Bool) (s : State) : Option State := if c then settle s else some s

/-- Each move of a line, with the control loop's steps where the schedule puts them. Per line they follow every move (R105);
per time they come before a `TICK`, when all that is placed at this value of `now` has been taken (R15). -/
def runMoves (b : Bench) (ms : List Move) (s : State) : Option State :=
  match ms with
  | [] => some s
  | m :: rest =>
    (settleIf (b.eager && b.account == .perTime && m == .word (encode 13 .wsTick)) s).bind fun t =>
      (stepMove m t).bind fun u => (settleIf (b.eager && b.account == .perLine) u).bind (runMoves b rest)

/-- One line after the first `RESET` line (R105). Per line, `.eager` lets the control loop step at once; per time, `.manual`
lets it step first, since its steps belong to the value of `now` that the eager part of the script ends at (DESIGN CHOICE,
log entry 17). -/
def runStarted (b : Bench) (l : Line) : Option Bench :=
  match l with
  | .eager => (settleIf (b.account == .perLine) b.state).map fun t => { b with eager := true, state := t }
  | .manual =>
    (settleIf (b.eager && b.account == .perTime) b.state).map fun t => { b with eager := false, state := t }
  | l => (runMoves b (l.moves b.state.now) b.state).map fun t => { b with state := t }

/-- One line of a script (R105): before the first `RESET` line no step but `ENABLE` is taken, and it only sets the level
that the reset will find. DESIGN CHOICE (log entry 17): R105 does not say what becomes of another line that stands there;
here it is an error of the script, which then has no result, and it is not skipped. -/
def runLine (b : Bench) (l : Line) : Option Bench :=
  if b.started then runStarted b l
  else
    match l with
    | .eager => some { b with eager := true }
    | .manual => some { b with eager := false }
    | .enable v => (stepMove (.word (encode 13 (.envEnable v))) b.state).map fun t => { b with state := t }
    | .reset => runStarted { b with started := true } .reset
    | .addr _ | .data _ | .stop | .rsvd | .tick _ | .txstep _ | .pkt _ _ | .untilTime _ => none

/-- The end of a script: per time, the control loop still takes its steps at the last value of `now` (R15). -/
def finish (b : Bench) : Option State := settleIf (b.started && b.eager && b.account == .perTime) b.state

/-- A script, line by line, from any state; it starts eager, "the default" (R105). -/
def runScript (account : Eager) (ls : List Line) (s : State) : Option State :=
  (ls.foldlM runLine { account := account, eager := true, started := false, state := s }).bind finish

end Sys2Proof.Machine
end

