-- ==== Sys2Proof/Safety.lean ====
section
/-! DEFINITION. Safety.lean: the terms the statements are made in: agents, runs, the observed outputs, the invariant, the
unread packets, and the conditions the spec labels as errors. -/

namespace Sys2Proof.Machine

/-- Who takes a step (00_scope.md R12); `inner` is an operation seen at an internal interface, executed inside a step of
another agent (30_encoding.md R90). -/
inductive Agent where
  | hw
  | rx
  | tx
  | env
  | inner
  deriving DecidableEq, Repr

/-- The agent of an operation (00_scope.md R12, 30_encoding.md R90). -/
def agentOf : Instr → Agent
  | .wsTick => .hw
  | .rxAddr _ | .rxData _ | .rxStop _ | .rxRsvd _ => .rx
  | .txIterHalted _ | .txIterReady _ | .txIterEmpty _ => .tx
  | .txRunAdv _ | .txRunAdvread _ | .txRunEnd _ _ | .txWait _ | .txHalt _ => .tx
  | .envEnable _ | .envReset => .env
  | .wsAdv _ | .wsWait | .beZero | .beOne | .bePause | .symRsvd => .inner
  | .fbFrame1 _ _ | .fbFrame2 _ _ _ | .fbFrame3 _ _ _ _ | .fbFrame4 _ _ _ _ _ => .inner
  | .ringTrynext _ _ | .ringAdvread | .ringCommit _ _ _ _ _ | .uopAdv _ | .uopAdvread _ => .inner

/-- The three steps that begin an iteration (45_control_loop.md R210). -/
def beginsIteration : Instr → Bool
  | .txIterHalted _ | .txIterReady _ | .txIterEmpty _ => true
  | .wsTick | .wsAdv _ | .wsWait | .beZero | .beOne | .bePause | .symRsvd => false
  | .fbFrame1 _ _ | .fbFrame2 _ _ _ | .fbFrame3 _ _ _ _ | .fbFrame4 _ _ _ _ _ => false
  | .ringTrynext _ _ | .ringAdvread | .ringCommit _ _ _ _ _ => false
  | .rxAddr _ | .rxData _ | .rxStop _ | .rxRsvd _ => false
  | .txRunAdv _ | .txRunAdvread _ | .txRunEnd _ _ | .txWait _ | .txHalt _ => false
  | .envEnable _ | .envReset | .uopAdv _ | .uopAdvread _ => false

/-- The pattern that selects a control loop step, as the mask of its fixed bits and their values (30_encoding.md R98). -/
def txselPattern : Instr → Option (BitVec 6 × BitVec 6)
  | .txIterHalted _ => some (0b111000, 0b000000)
  | .txIterReady _ => some (0b111100, 0b001100)
  | .txIterEmpty _ => some (0b111100, 0b001000)
  | .txRunAdv _ => some (0b110011, 0b010010)
  | .txRunAdvread _ => some (0b110011, 0b010011)
  | .txRunEnd _ _ => some (0b110010, 0b010000)
  | .txWait _ => some (0b110000, 0b100000)
  | .txHalt _ => some (0b110000, 0b110000)
  | .wsTick | .wsAdv _ | .wsWait | .beZero | .beOne | .bePause | .symRsvd => none
  | .fbFrame1 _ _ | .fbFrame2 _ _ _ | .fbFrame3 _ _ _ _ | .fbFrame4 _ _ _ _ _ => none
  | .ringTrynext _ _ | .ringAdvread | .ringCommit _ _ _ _ _ => none
  | .rxAddr _ | .rxData _ | .rxStop _ | .rxRsvd _ => none
  | .envEnable _ | .envReset | .uopAdv _ | .uopAdvread _ => none

/-- The state's TXSEL word matches the operation's pattern (30_encoding.md R98). -/
def selectedByTxsel (i : Instr) (s : State) : Bool :=
  match txselPattern i with
  | some (mask, value) => txselWord s &&& mask == value
  | none => false

/-- Operations one after another, stopping at the first that does not answer a next state. -/
def runOps (l : List Instr) (s : State) : Result :=
  match l with
  | [] => .next s
  | i :: rest =>
    match exec i s with
    | .next t => runOps rest t
    | .fault r => .fault r
    | .refused r => .refused r

/-- A next state with a change to it; a stop as it is. -/
def mapNext (f : State → State) (r : Result) : Result :=
  match r with
  | .next t => .next (f t)
  | .fault e => .fault e
  | .refused e => .refused e

/-- The toggles of a trace, oldest first: time and new level (00_scope.md R14). -/
def toggles (tr : List Event) : List (Nat × Bool) :=
  tr.filterMap fun e =>
    match e with
    | .tog t l => some (t, l)
    | .rel => none
    | .kick => none

/-- How many watchdog pulses a trace holds. -/
def kicks (tr : List Event) : Nat := tr.countP (· == .kick)

/-- How many flow-control releases a trace holds. -/
def releases (tr : List Event) : Nat := tr.countP (· == .rel)

/-- The state without what only an observer sees (10_state.md R34). -/
def State.unobserved (s : State) : State := { s with now := 0, trace := [] }

/-- How many ticks are in a list of operations. -/
def tickCount (l : List Instr) : Nat := l.countP (· == .wsTick)

/-- Ticks and receiver steps only: what goes on while the control loop takes no step (40_waveform_scheduler.md R123). -/
def ticksAndEvents (l : List Instr) : Prop := ∀ i ∈ l, agentOf i = .hw ∨ agentOf i = .rx

/-- The ticks from now to the next match if the target stays where it is: 1 to 65536 (70_reset_and_hazards.md R262). -/
def State.ticksToMatch (s : State) : Nat := (s.cmp - s.cnt - 1).toNat + 1

/-- The invariant: the ranges of 10_state.md R32, the slot memory in canonical form, a build as 00_scope.md R8 asks. -/
def State.Inv (s : State) : Prop := s.inRange = true ∧ Memory.wf s.mem = true ∧ s.cfg.wf

/-- The duration an operation adds to the compare target in a state, 0 if it adds none (40_waveform_scheduler.md R121,
45_control_loop.md R214). -/
def advancedBy (i : Instr) (s : State) : Ticks :=
  match i with
  | .wsAdv d => d
  | .txRunAdv _ =>
    match s.txPhase, s.txProg with
    | .run, .adv d :: _ => d
    | _, _ => 0
  | .uopAdv d => if s.txPhase = .run ∧ s.txProg.head? = some (.adv d) then d else 0
  | .wsTick | .wsWait | .beZero | .beOne | .bePause | .symRsvd => 0
  | .fbFrame1 _ _ | .fbFrame2 _ _ _ | .fbFrame3 _ _ _ _ | .fbFrame4 _ _ _ _ _ => 0
  | .ringTrynext _ _ | .ringAdvread | .ringCommit _ _ _ _ _ => 0
  | .rxAddr _ | .rxData _ | .rxStop _ | .rxRsvd _ => 0
  | .txIterHalted _ | .txIterReady _ | .txIterEmpty _ => 0
  | .txRunAdvread _ | .txRunEnd _ _ | .txWait _ | .txHalt _ => 0
  | .envEnable _ | .envReset | .uopAdvread _ => 0

/-- The sum, modulo 65536, of the durations a list of operations adds to the compare target. -/
def advancedOver (l : List Instr) (s : State) : Ticks :=
  match l with
  | [] => 0
  | i :: rest =>
    match exec i s with
    | .next t => advancedBy i s + advancedOver rest t
    | .fault _ => advancedBy i s
    | .refused _ => advancedBy i s

/-- The cursor n slots after c (00_scope.md R10). -/
def cursorAfter (c : Cursor) (n : Nat) : Cursor := BitVec.ofNat 6 ((c.toNat + n) % Config.cap)

/-- The committed and unread packets, oldest first: the slots from `rd` up to but not including `wr`
(20_memory.md R61, 43_packet_ring.md R175). -/
def State.unread (s : State) : List Slot := (List.range s.avail).map fun n => readSlot s.mem (cursorAfter s.rd n)

/-- The data bytes of a list of operations, in order. -/
def dataBytes (l : List Instr) : List Byte :=
  l.filterMap fun i =>
    match i with
    | .rxData d => some d
    | _ => none

/-- Events that can stand inside a packet: no stop condition (44_async_receiver.md R197). -/
def insidePacket (l : List Instr) : Prop :=
  ∀ i ∈ l, match i with
    | .rxAddr _ | .rxData _ | .rxRsvd _ => True
    | _ => False

/-- The ticks the micro-operations of a program take when no latency reaches the next duration (42_frame_encoder.md
R157). -/
def progTicks (p : List UOp) : Nat :=
  match p with
  | [] => 0
  | .adv d :: rest => d.toNat + progTicks rest
  | .advread :: rest => progTicks rest

/-- The conditions that would be exceptions elsewhere (60_exceptions.md R231), those one step can show; `E_HANG`, which a
whole run shows, is `hangsFrom`. -/
inductive Condition where
  | overlong
  | emptyStop
  | rsvdEvent
  | overrun
  | lateUpdate
  | staleMatch
  deriving DecidableEq, Repr

/-- `E_OVERLONG` (R231): "a fifth or later data byte in one packet", `RX_DATA` with `rx_off = 4`. -/
def isOverlong (i : Instr) (s : State) : Prop := (∃ d, i = .rxData d) ∧ s.rxOff = 4

/-- `E_EMPTYSTOP` (R231): "stop condition with no data byte", `RX_STOP` with `rx_off = 0`, `rx_ovf = 0`. -/
def isEmptyStop (i : Instr) (s : State) : Prop := (∃ x, i = .rxStop x) ∧ s.rxOff = 0 ∧ s.rxOvf = false

/-- `E_RSVD_EVENT` (R231): a bus event of kind 3. -/
def isRsvdEvent (i : Instr) : Prop := ∃ x, i = .rxRsvd x

/-- `E_OVERRUN` (R231), told by what the step does: "a commit that makes `wr = rd`, or any RX write while `wr = rd` after
such a commit". A commit is a step of RX that moves the write cursor, and an RX write is one that moves it or stores a byte.
No register records that a commit made `wr = rd`: `full` says so, and `fullAt` says it of a run (log entry 14). -/
def isOverrun (full : Bool) (i : Instr) (s : State) : Prop :=
  agentOf i = .rx ∧ ∃ t, exec i s = .next t
    ∧ ((t.wr ≠ s.wr ∧ t.wr = t.rd)
      ∨ (full = true ∧ s.wr = s.rd ∧ (t.wr ≠ s.wr ∨ t.rxOff.toNat = s.rxOff.toNat + 1)))

/-- The time of the latest toggle recorded. -/
def State.lastToggle (s : State) : Option Nat := (toggles s.trace).getLast?.map (·.1)

/-- A `WS_ADV(d)` would come d or more ticks after the match before it; false where no match came before (log entry 14). -/
def lateUpdate (d : Ticks) (s : State) : Bool :=
  match s.lastToggle with
  | some t => decide (d.toNat ≤ s.now - t)
  | none => false

/-- The operation is TX_RUN_ADV, and executes `WS_ADV(d)` in this state (45_control_loop.md R214). -/
def runsAdv (d : Ticks) (i : Instr) (s : State) : Prop :=
  (∃ x, i = .txRunAdv x) ∧ s.txPhase = .run ∧ s.txProg.head? = some (.adv d)

/-- `E_LATE_UPDATE` (R231): "`WS_ADV(d)` executed d or more ticks after the match before it". -/
def isLateUpdate (i : Instr) (s : State) : Prop := ∃ d, runsAdv d i s ∧ lateUpdate d s = true

/-- `E_STALE_MATCH` (R231): "`WS_ADV` executed with `mf = 1`". -/
def isStaleMatch (i : Instr) (s : State) : Prop := (∃ d, runsAdv d i s) ∧ s.mf = true

/-- The condition applies to the step that the operation makes in the state (R231). -/
def Condition.appliesTo (c : Condition) (full : Bool) (i : Instr) (s : State) : Prop :=
  match c with
  | .overlong => isOverlong i s
  | .emptyStop => isEmptyStop i s
  | .rsvdEvent => isRsvdEvent i
  | .overrun => isOverrun full i s
  | .lateUpdate => isLateUpdate i s
  | .staleMatch => isStaleMatch i s

/-- The operation that step n of a run makes. -/
def operationAt (r : Nat → State) (n : Nat) : Option Instr := (fetch (r n)).1.toOption

/-- A commit of a run before step n made `wr = rd`, and neither a reset nor a move of a cursor has come since (R231,
`E_OVERRUN`). -/
def fullAt (r : Nat → State) (n : Nat) : Prop :=
  ∃ m, m < n ∧ (r m).wr ≠ (r m).rd
    ∧ ((∃ x, operationAt r m = some (.rxStop x)) ∨ ∃ u d c b a, operationAt r m = some (.ringCommit u d c b a))
    ∧ ∀ k, m < k → k ≤ n → (r k).wr = (r k).rd ∧ (r k).wr = (r (m + 1)).wr
      ∧ (k < n → operationAt r k ≠ some .envReset)

/-- `E_HANG` (R231): "no match ever arrives", so that from step n of a run on TX_WAIT is never enabled. DESIGN CHOICE (log
entry 14): the row does not say whether a hang that the watchdog's reset ends is one still; here "ever" is the whole run, so a
run in which a reset comes after step n does not hang from n. -/
def hangsFrom (r : Nat → State) (n : Nat) : Prop := ∀ m, n ≤ m → (r m).txPhase = .wait ∧ (r m).mf = false

end Sys2Proof.Machine
end

