-- ==== Sys2Proof/Certificates/Slice0/Obligations.lean ====
section
/-! DEFINITION. Certificates/Slice0/Obligations.lean: the statements for the provers. Each docstring says which rule of the
spec the statement formalises; OBLIGATIONS.json lists them. -/

open Sys2Proof Sys2Proof.Machine

/-! ### Words and operations -/

/-- 30_encoding.md R91 to R100: decoding the word of an operation gives the operation back, with every operand at every
value, in every build with at least one preamble bit. -/
def Obligations.DecodeOfEncodeIsTheOperation : Prop :=
  ∀ (nPre : Nat) (i : Instr), 1 ≤ nPre → decode nPre (encode nPre i) = .ok i

/-- 30_encoding.md R91 to R100: a word that decodes is the word of the operation it decodes to; no bit of it is lost, and
no two words select one operation. -/
def Obligations.EncodeOfDecodeIsTheWord : Prop :=
  ∀ (nPre : Nat) (pw : PortWord) (i : Instr), decode nPre pw = .ok i → encode nPre i = pw

/-- Words written out from the patterns of R92, R93, R94, R96, R97, R98 and R100 and the vectors of 95_test_vectors.md
select the operations they stand for. -/
def Obligations.WordsOfTheSpecDecode : Prop :=
  decode 13 ⟨.tick, 1⟩ = .ok .wsTick
  ∧ decode 13 ⟨.dur, 0xFFFF⟩ = .ok (.wsAdv 65535)
  ∧ decode 13 ⟨.sym, 0b01⟩ = .ok .beOne
  ∧ decode 13 ⟨.frame, 0b11111111111110000000110000000111⟩ = .ok (.fbFrame1 0x03 0x03)
  ∧ decode 13 ⟨.qres, 0b1101001⟩ = .ok (.ringTrynext true 41)
  ∧ decode 13 ⟨.commitw, 0x378563412⟩ = .ok (.ringCommit 3 0x78 0x56 0x34 0x12)
  ∧ decode 13 ⟨.busEvt, 0x111⟩ = .ok (.rxData 0x11)
  ∧ decode 13 ⟨.busEvt, 0x200⟩ = .ok (.rxStop 0)
  ∧ decode 13 ⟨.txsel, 0b001100⟩ = .ok (.txIterReady 0)
  ∧ decode 13 ⟨.enable, 1⟩ = .ok (.envEnable true)
  ∧ decode 13 ⟨.uop, 0x10000⟩ = .ok (.uopAdvread 0)

/-- 30_encoding.md R98: "The eight patterns cover all 64 values of the word and no two overlap". Every TXSEL word decodes to
a control loop step whose pattern it matches, and it matches the pattern of no other kind of step. -/
def Obligations.TxselPatternsCoverAllWordsOnce : Prop :=
  ∀ w : BitVec 6, ∃ i, decode 13 ⟨.txsel, w.toNat⟩ = .ok i
    ∧ (∃ p, txselPattern i = some p ∧ w &&& p.1 = p.2)
    ∧ ∀ (j : Instr) (q : BitVec 6 × BitVec 6), txselPattern j = some q → w &&& q.1 = q.2 → txselPattern j = txselPattern i

/-- 30_encoding.md R100: which bit stands at which position of the frame, counted from 0 in order of transmission. -/
def Obligations.FrameBitsStandAtTheirPositions : Prop :=
  ∀ (nPre : Nat) (ds : List Byte) (k : Byte),
    (frameBits nPre ds k).length = nPre + 10 + 9 * ds.length
    ∧ (∀ p, p < nPre → (frameBits nPre ds k)[p]? = some true)
    ∧ (frameBits nPre ds k)[nPre]? = some false
    ∧ (∀ j d n, ds[j]? = some d → n < 8 → (frameBits nPre ds k)[nPre + 1 + 9 * j + n]? = some (d.getLsbD (7 - n)))
    ∧ (∀ j, j < ds.length → (frameBits nPre ds k)[nPre + 9 + 9 * j]? = some false)
    ∧ (∀ n, n < 8 → (frameBits nPre ds k)[nPre + 1 + 9 * ds.length + n]? = some (k.getLsbD (7 - n)))
    ∧ (frameBits nPre ds k)[nPre + 9 + 9 * ds.length]? = some true

/-- 30_encoding.md R100 and 42_frame_encoder.md R156: the FRAME word of a packet, read from its leftmost bit, is the frame
that FrameBuilder sends, bit for bit in time. -/
def Obligations.FrameWordIsTheFrameInTime : Prop :=
  ∀ (nPre : Nat) (ds : List Byte) (k : Byte) (p : Nat), p < nPre + 10 + 9 * ds.length →
    (frameBits nPre ds k)[p]? = some ((frameWord nPre ds k).testBit (nPre + 9 + 9 * ds.length - p))

/-- 42_frame_encoder.md R157: the sizes of a frame. Two micro-operations a bit; the duration is that of the ones and the
zeros; the zeros are those of the data and checksum bits, the start bit and the separators. -/
def Obligations.FrameLengthAndDuration : Prop :=
  ∀ (c : Config.Params) (ds : List Byte) (k : Byte),
    (frameProg c ds k).length = 2 * (c.nPre + 10 + 9 * ds.length)
    ∧ progTicks (frameProg c ds k) = 2 * c.tOne.toNat * (frameBits c.nPre ds k).count true
        + 2 * c.tZero.toNat * (frameBits c.nPre ds k).count false
    ∧ (frameBits c.nPre ds k).count false = ((ds ++ [k]).flatMap byteBits).count false + ds.length + 1

/-- 42_frame_encoder.md R151 and R161: the checksum is the XOR of the valid bytes in any order; one byte is its own
checksum and a pair of equal bytes cancels; bytes beyond the usage count enter neither the checksum nor the program. -/
def Obligations.ChecksumOfTheValidBytesInAnyOrder : Prop :=
  (∀ ds es : List Byte, ds.Perm es → xorBytes ds = xorBytes es)
  ∧ (∀ v : Byte, xorBytes [v] = v ∧ xorBytes [v, v] = 0)
  ∧ (∀ (c : Config.Params) (p q : Slot), p.uc = q.uc → validBytes p = validBytes q →
      checksum p = checksum q ∧ packetProg c p = packetProg c q)
  ∧ (∀ p : Slot, checksum p = p.b0 ^^^ (if 1 ≤ p.uc.toNat then p.b1 else 0) ^^^ (if 2 ≤ p.uc.toNat then p.b2 else 0)
      ^^^ (if 3 ≤ p.uc.toNat then p.b3 else 0))

/-- 10_state.md R35 (informative): the registers an implementation can hold instead of the program denote, at the beginning
of a frame and after every number of micro-operations, what is left of the program of 45_control_loop.md R212. -/
def Obligations.StageRegistersDenoteTheProgram : Prop :=
  ∀ (c : Config.Params) (p : Slot) (n fuel : Nat), n ≤ (packetProg c p).length →
    (packetProg c p).length - n ≤ fuel →
    StageRegs.denote c p (checksum p) fuel ((StageRegs.next p)^[n] (StageRegs.begin c.nPre)) = (packetProg c p).drop n

/-! ### The step -/

/-- A step runs the operation that the word of the next move selects: an agent's step of 00_scope.md R12, and for the control
loop the one that TXSEL selects (30_encoding.md R98). The rules say no more than that. The rest is the model's choice: the
list of pending moves, and that the operation runs in the state without its move (log entry 1, DESIGN CHOICE); that where no
move is pending it is a free choice among the agents, counted by `choices` (log entry 2, DESIGN CHOICE). -/
def Obligations.StepRunsTheDecodedOperation : Prop :=
  (∀ (s : State) (m : Move) (rest : List Move) (i : Instr), s.inRange = true → s.pending = m :: rest →
    decode s.cfg.nPre (wordOfMove m s) = .ok i → step s = exec i { s with pending := rest })
  ∧ (∀ (s : State) (i : Instr), s.inRange = true → s.pending = [] →
    decode s.cfg.nPre (wordOfMove (moveOfChoice (Config.freeChoice s.choices)) s) = .ok i →
    step s = exec i { s with choices := s.choices + 1 })

/-- 30_encoding.md R98: given the move, the control loop runs the one step whose pattern its TXSEL word matches. That it is
given the move by `present` is the model's choice (log entry 1). -/
def Obligations.ControlLoopMoveRunsTheSelectedStep : Prop :=
  ∀ s : State, s.inRange = true → ∃ i, agentOf i = .tx ∧ selectedByTxsel i s = true ∧ step (s.present .tx) = exec i s
    ∧ ∀ j, selectedByTxsel j s = true → txselPattern j = txselPattern i

/-- 10_state.md R32 and 93_implementation_defined.md U9: a state outside the ranges is refused as a start state. That `step`
refuses it, whatever comes next, is the model's choice (log entry 9). -/
def Obligations.OutOfRangeStateIsRefused : Prop :=
  ∀ s : State, s.inRange = false → step s = .refused .outOfRange

/-- The model's choice (log entry 3): `withFetchWord` makes the next step run the operation of a bare word of the opcode
table, and a control loop step's word is then selected. -/
def Obligations.TableWordRunsItsOperation : Prop :=
  ∀ (s : State) (nbits w : Nat) (i : Instr), s.inRange = true → 1 ≤ s.cfg.nPre → decodeTableWord nbits w = some i →
    step (s.withFetchWord nbits w) = exec i (s.selecting i)
    ∧ (agentOf i = .tx → selectedByTxsel i (s.selecting i) = true)

/-- 60_exceptions.md R230: "Every operation is total: it has a defined result in every reachable state." No
operation faults in any state, and in range every operation but the reserved symbol answers a next state. That a step the
state does not enable answers the same state is the model's (log entry 8, DEDUCED). -/
def Obligations.EveryOperationIsTotalInRange : Prop :=
  (∀ (i : Instr) (s : State) (r : Fault), exec i s ≠ .fault r)
  ∧ ∀ (i : Instr) (s : State), s.inRange = true → i ≠ .symRsvd → ∃ t, exec i s = .next t

/-- In range, whatever agent of 00_scope.md R12 moves, and with nothing lined up, a step answers a next state. This is the
model's in three points. In WAIT with `mf = 0` and in HALT with `tx_hleft > 0` the spec says that TX has no step, and the
control loop's move then answers the same state (log entry 8, DEDUCED). That an agent is given the move by `present` is log
entry 1, and that with nothing lined up a free choice gives it is log entry 2 (both DESIGN CHOICE). -/
def Obligations.EveryAgentCanAlwaysMove : Prop :=
  ∀ s : State, s.inRange = true →
    (∀ c : Config.Choice, ∃ t, step (s.present (moveOfChoice c)) = .next t)
    ∧ (s.pending = [] → ∃ t, step s = .next t)

/-- 10_state.md R32: every step keeps the ranges, the canonical form of the slot memory, and the build. -/
def Obligations.StepKeepsRangesAndMemoryForm : Prop :=
  ∀ s t : State, s.Inv → step s = .next t → t.Inv ∧ t.cfg = s.cfg

/-- 10_state.md R32 and R33: the state after reset is in range, its memory in canonical form, its build a legal one. -/
def Obligations.ResetIsInRange : Prop := State.reset.Inv

/-! ### WaveformScheduler -/

/-- 40_waveform_scheduler.md R120: WS_TICK counts, compares after the increment, and on a match latches the flag, toggles
the pin and records it; the HALTED delay counts down to 0; nothing else changes. -/
def Obligations.TickCountsAndTogglesOnAMatch : Prop :=
  ∀ s : State,
    (s.cnt + 1 = s.cmp → exec .wsTick s = .next
      { s with cnt := s.cnt + 1
               now := s.now + 1
               mf := true
               pin := !s.pin
               trace := s.trace ++ [.tog (s.now + 1) (!s.pin)]
               txHleft := s.txHleft - 1 })
    ∧ (s.cnt + 1 ≠ s.cmp → exec .wsTick s = .next
      { s with cnt := s.cnt + 1
               now := s.now + 1
               txHleft := s.txHleft - 1 })

/-- 40_waveform_scheduler.md R121: WS_ADV(d) adds d to the target modulo 65536 and touches nothing else. -/
def Obligations.AdvMovesOnlyTheTarget : Prop :=
  ∀ (d : Ticks) (s : State), ∃ c : Ticks, c.toNat = (s.cmp.toNat + d.toNat) % 65536
    ∧ exec (.wsAdv d) s = .next { s with cmp := c }

/-- 40_waveform_scheduler.md R122: WS_WAIT consumes the match. While `mf = 0` the caller waits; that nothing changes then is
how the model takes "TX has no step" (log entry 8). -/
def Obligations.WaitConsumesTheMatchOrWaits : Prop :=
  ∀ s : State, (s.mf = true → exec .wsWait s = .next { s with mf := false }) ∧ (s.mf = false → exec .wsWait s = .next s)

/-- 70_reset_and_hazards.md R262 and 40_waveform_scheduler.md R125, R130, R131: while the control loop takes no step, the
next toggle comes exactly `((cmp - cnt - 1) mod 65536) + 1` ticks from now, whatever bus events come in between, it latches
the match, and it is the only one for 65536 ticks more. -/
def Obligations.NextToggleTimeIsFixedByTheTarget : Prop :=
  ∀ (s : State) (l : List Instr), s.inRange = true → ticksAndEvents l → tickCount l < s.ticksToMatch + 65536 →
    ∃ t, runOps l s = .next t ∧ t.now = s.now + tickCount l
      ∧ toggles t.trace = toggles s.trace
          ++ (if s.ticksToMatch ≤ tickCount l then [(s.now + s.ticksToMatch, !s.pin)] else [])
      ∧ t.mf = (s.mf || decide (s.ticksToMatch ≤ tickCount l))

/-- 40_waveform_scheduler.md R127: after a match, a WS_ADV(d) at a latency below d puts the next toggle exactly d ticks after
the match, whatever the latency and whatever bus events come in between. -/
def Obligations.SemiPeriodIsExactWithinTheLatencyBound : Prop :=
  ∀ (s : State) (d : Ticks) (before after : List Instr), s.inRange = true → s.cnt = s.cmp →
    ticksAndEvents before → ticksAndEvents after → tickCount before < d.toNat →
    tickCount before + tickCount after < d.toNat + 65536 →
    ∃ t, runOps (before ++ .wsAdv d :: after) s = .next t
      ∧ toggles t.trace = toggles s.trace
          ++ (if d.toNat ≤ tickCount before + tickCount after then [(s.now + d.toNat, !s.pin)] else [])

/-- 40_waveform_scheduler.md R128, R129 and R132: a WS_ADV(d) that comes d ticks or more after the match (d = 0 always does)
fires nothing when it is written and makes the next toggle come one turn of the counter late. -/
def Obligations.LateUpdateCostsOneTurnOfTheCounter : Prop :=
  ∀ (s : State) (d : Ticks) (before after : List Instr), s.inRange = true → s.cnt = s.cmp →
    ticksAndEvents before → ticksAndEvents after → d.toNat ≤ tickCount before → tickCount before < 65536 →
    tickCount before + tickCount after < d.toNat + 131072 →
    ∃ t, runOps (before ++ .wsAdv d :: after) s = .next t
      ∧ toggles t.trace = toggles s.trace
          ++ (if d.toNat + 65536 ≤ tickCount before + tickCount after then [(s.now + d.toNat + 65536, !s.pin)] else [])

/-- 40_waveform_scheduler.md R126: after any run without a reset, the target is the old one plus the durations of all the
WS_ADV steps in it; no value of the counter enters it. That UOP_ADV presented as an operation is such a step is the model's
deduction (log entry 13). -/
def Obligations.TargetIsTheSumOfTheDurations : Prop :=
  ∀ (l : List Instr) (s t : State), .envReset ∉ l → runOps l s = .next t → t.cmp = s.cmp + advancedOver l s

/-- 40_waveform_scheduler.md R124: with a stale match, `advance` returns at once: no tick passes, the pin does not toggle,
the match is consumed and the target has moved all the same. -/
def Obligations.StaleMatchEndsAdvanceAtOnce : Prop :=
  ∀ (s : State) (d : Ticks) (rest : List UOp) (x : BitVec 2) (y : BitVec 4), s.txPhase = .run → s.txProg = .adv d :: rest →
    s.mf = true →
    runOps [.txRunAdv x, .txWait y] s = .next { s with cmp := s.cmp + d, txProg := rest, mf := false }

/-! ### BitEncoder and FrameBuilder -/

/-- 41_bit_encoder.md R140, R141, R142 and R145: the three symbols are answered with their micro-operations, and no register
changes. Where the answer is held is the model's choice (log entry 6). -/
def Obligations.SymbolsExpandToTheirDurations : Prop :=
  ∀ s : State,
    exec .beOne s = .next { s with answer := .symbol [.adv s.cfg.tOne, .adv s.cfg.tOne] }
    ∧ exec .beZero s = .next { s with answer := .symbol [.adv s.cfg.tZero, .adv s.cfg.tZero] }
    ∧ exec .bePause s = .next { s with answer := .symbol [.adv s.cfg.tPause] }

/-- 30_encoding.md R103 (b): the reserved symbol is refused in every state. -/
def Obligations.ReservedSymbolIsRefused : Prop :=
  ∀ s : State, exec .symRsvd s = .refused .reservedSymbol

/-- 42_frame_encoder.md R156, R158, R159 and R160: the four frame operations answer the bits of their packet's frame and the
two micro-operations of every bit, whatever the bytes; no register and no byte of memory changes. Where the answer is held is
the model's choice (log entry 6). -/
def Obligations.FramesExpandToBitsAndMicroOperations : Prop :=
  ∀ (s : State) (a b c d k : Byte),
    let answered := fun ds : List Byte => Host.Outcome.next
      { s with answer := .frame (frameBits s.cfg.nPre ds k)
                 ((frameBits s.cfg.nPre ds k).flatMap fun v =>
                   if v then [.adv s.cfg.tOne, .adv s.cfg.tOne] else [.adv s.cfg.tZero, .adv s.cfg.tZero]) }
    exec (.fbFrame1 a k) s = answered [a]
    ∧ exec (.fbFrame2 a b k) s = answered [a, b]
    ∧ exec (.fbFrame3 a b c k) s = answered [a, b, c]
    ∧ exec (.fbFrame4 a b c d k) s = answered [a, b, c, d]

/-! ### PacketRing -/

/-- 43_packet_ring.md R170 and 30_encoding.md R94: the query answers valid with the read cursor when the cursors differ, and
none otherwise; no register changes. Where the answer is held is the model's choice (log entry 6). -/
def Obligations.TryNextAnswersTheReadCursor : Prop :=
  ∀ (s : State) (v : Bool) (i : Cursor),
    (s.rd ≠ s.wr → exec (.ringTrynext v i) s = .next { s with answer := .qres (BitVec.append 1#1 s.rd) })
    ∧ (s.rd = s.wr → exec (.ringTrynext v i) s = .next { s with answer := .qres 0 })

/-- 43_packet_ring.md R172: RING_ADVREAD clears the five fields of the slot at the read cursor, advances the cursor modulo 42,
and changes nothing else. -/
def Obligations.AdvreadClearsTheSlotAndAdvances : Prop :=
  ∀ s : State, Memory.wf s.mem = true → s.rd.toNat < 42 → ∃ t, exec .ringAdvread s = .next t
    ∧ t = { s with mem := t.mem, rd := t.rd } ∧ t.rd.toNat = (s.rd.toNat + 1) % 42
    ∧ (∀ f, t.mem.read (cellAddr s.rd f) = 0)
    ∧ ∀ a, (∀ f, a ≠ cellAddr s.rd f) → t.mem.read a = s.mem.read a

/-- 43_packet_ring.md R173: RING_COMMIT writes the usage count of the slot at the write cursor, advances the cursor modulo 42,
and changes nothing else, the slot's bytes included. That this holds whatever bytes its word describes, also where they are
not those of the slot, is the model's deduction (log entry 11): R173 and 30_encoding.md R93 speak of a word whose bytes the
slot already holds. -/
def Obligations.CommitWritesTheUsageAndAdvances : Prop :=
  ∀ (s : State) (u : Usage) (d c b a : Byte), Memory.wf s.mem = true → s.wr.toNat < 42 →
    ∃ t, exec (.ringCommit u d c b a) s = .next t
      ∧ t = { s with mem := t.mem, wr := t.wr } ∧ t.wr.toNat = (s.wr.toNat + 1) % 42
      ∧ (readSlot t.mem s.wr).uc = u
      ∧ ∀ x, x ≠ cellAddr s.wr .uc → t.mem.read x = s.mem.read x

/-- 43_packet_ring.md R179: each cursor is advanced by one modulo 42 and by its own context only. That UOP_ADVREAD presented as
an operation advances the read cursor is the model's deduction (log entry 13). -/
def Obligations.CursorsOnlyMoveForwardByOne : Prop :=
  ∀ (i : Instr) (s t : State), i ≠ .envReset → exec i s = .next t →
    (t.wr = s.wr ∨ (t.wr = incCap s.wr ∧ ((∃ x, i = .rxStop x) ∨ ∃ u d c b a, i = .ringCommit u d c b a)))
    ∧ (t.rd = s.rd ∨ (t.rd = incCap s.rd
        ∧ ((∃ x, i = .txRunAdvread x) ∨ i = .ringAdvread ∨ ∃ x, i = .uopAdvread x)))

/-- 43_packet_ring.md R175, R178 and 20_memory.md R61: the unread packets are a queue. A commit with at most 40 unread puts
the slot just filled at its end, an ADVREAD takes its head away, no other operation changes it, and what an iteration latches
is its head. -/
def Obligations.UnreadPacketsAreAQueue : Prop :=
  ∀ (i : Instr) (s t : State), s.Inv → i ≠ .envReset → exec i s = .next t →
    (t.wr ≠ s.wr → s.avail < 41 → t.unread = s.unread ++ [readSlot t.mem s.wr])
    ∧ (t.rd ≠ s.rd → s.unread ≠ [] → t.unread = s.unread.tail)
    ∧ (t.wr = s.wr → t.rd = s.rd → t.unread = s.unread)
    ∧ (∀ x, i = .txIterReady x → selectedByTxsel i s = true → s.unread.head? = some t.fr)

/-- 43_packet_ring.md R175 and R176: the commit of a forty-second unread packet makes the ring look empty, and the next data
byte lands in the slot of the oldest of them. -/
def Obligations.FortySecondCommitMakesTheRingLookEmpty : Prop :=
  ∀ (s : State) (x d : Byte), s.Inv → s.avail = 41 → s.rxOvf = false → 1 ≤ s.rxOff.toNat →
    ∃ t u, exec (.rxStop x) s = .next t ∧ t.ready = false ∧ t.unread = [] ∧ t.wr = s.rd
      ∧ exec (.rxData d) t = .next u ∧ u.mem.read (cellAddr s.rd .b0) = d

/-! ### AsyncPacketReceiver -/

/-- 44_async_receiver.md R191: an address-phase byte releases flow control and changes nothing else. -/
def Obligations.AddressByteOnlyReleases : Prop :=
  ∀ (a : Byte) (s : State), exec (.rxAddr a) s = .next { s with trace := s.trace ++ [.rel] }

/-- 44_async_receiver.md R192: a data byte is stored at the per-byte offset of the slot at the write cursor, or dropped and
the packet marked when the slot is full; flow control is released in both cases; no other cell and no other register
changes. -/
def Obligations.DataByteIsStoredOrDropped : Prop :=
  ∀ (d : Byte) (s : State),
    (s.rxOff.toNat < 4 → Memory.wf s.mem = true → s.wr.toNat < 42 → ∃ t, exec (.rxData d) s = .next t
      ∧ t = { s with mem := t.mem, rxOff := t.rxOff, trace := s.trace ++ [.rel] }
      ∧ t.rxOff.toNat = s.rxOff.toNat + 1
      ∧ t.mem.read (cellAddr s.wr (Field.byte s.rxOff.toNat)) = d
      ∧ ∀ a, a ≠ cellAddr s.wr (Field.byte s.rxOff.toNat) → t.mem.read a = s.mem.read a)
    ∧ (4 ≤ s.rxOff.toNat →
      exec (.rxData d) s = .next { s with rxOvf := true, trace := s.trace ++ [.rel] })

/-- 44_async_receiver.md R193: a stop condition discards a marked packet, ignores an empty one, and commits any other with
the usage count `rx_off - 1`; nothing else changes and flow control is not released. -/
def Obligations.StopCommitsDiscardsOrIgnores : Prop :=
  ∀ (x : Byte) (s : State),
    (s.rxOvf = true → exec (.rxStop x) s = .next { s with rxOff := 0, rxOvf := false })
    ∧ (s.rxOvf = false → s.rxOff = 0 → exec (.rxStop x) s = .next s)
    ∧ (s.rxOvf = false → 1 ≤ s.rxOff.toNat → s.rxOff.toNat ≤ 4 → Memory.wf s.mem = true → s.wr.toNat < 42 →
      ∃ t, exec (.rxStop x) s = .next t
        ∧ t = { s with mem := t.mem, wr := t.wr, rxOff := 0 }
        ∧ t.wr.toNat = (s.wr.toNat + 1) % 42
        ∧ (readSlot t.mem s.wr).uc.toNat = s.rxOff.toNat - 1
        ∧ ∀ a, a ≠ cellAddr s.wr .uc → t.mem.read a = s.mem.read a)

/-- 44_async_receiver.md R196: an event of the reserved kind changes nothing. -/
def Obligations.ReservedEventChangesNothing : Prop :=
  ∀ (x : Byte) (s : State), exec (.rxRsvd x) s = .next s

/-- 44_async_receiver.md R197: 1 to 4 data bytes, with address and reserved events anywhere among them, and a stop condition
make one committed packet of exactly those bytes in order, in the slot at the write cursor; every other cell is as before. -/
def Obligations.TransactionMakesOnePacket : Prop :=
  ∀ (s : State) (l : List Instr) (x : Byte), s.Inv → s.rxOff = 0 → s.rxOvf = false → insidePacket l →
    1 ≤ (dataBytes l).length → (dataBytes l).length ≤ 4 →
    ∃ t, runOps (l ++ [.rxStop x]) s = .next t ∧ validBytes (readSlot t.mem s.wr) = dataBytes l
      ∧ t.wr = incCap s.wr ∧ t.rxOff = 0 ∧ t.rxOvf = false
      ∧ ∀ a, (∀ f, a ≠ cellAddr s.wr f) → t.mem.read a = s.mem.read a

/-- 44_async_receiver.md R194: a packet of five or more data bytes is discarded whole at its stop condition: no cursor moves,
no usage count is written, nothing outside the four bytes of the slot at the write cursor changes, its first four bytes stay
there, and the next packet starts at offset 0 of the same slot. -/
def Obligations.OverlongPacketIsDiscardedWhole : Prop :=
  ∀ (s : State) (l : List Instr) (x : Byte), s.Inv → s.rxOff = 0 → s.rxOvf = false → insidePacket l →
    5 ≤ (dataBytes l).length →
    ∃ t, runOps (l ++ [.rxStop x]) s = .next t ∧ t.wr = s.wr ∧ t.rxOff = 0 ∧ t.rxOvf = false ∧ t.unread = s.unread
      ∧ (dataBytes l).take 4 = [(readSlot t.mem s.wr).b0, (readSlot t.mem s.wr).b1, (readSlot t.mem s.wr).b2,
          (readSlot t.mem s.wr).b3]
      ∧ ∀ a, (∀ k, k < 4 → a ≠ cellAddr s.wr (Field.byte k)) → t.mem.read a = s.mem.read a

/-- 60_exceptions.md R235 and R236: the handler saves nothing and changes nothing of the control loop, and returns to exactly
where it interrupted: the step TXSEL selects is the one it selected before, unless the write cursor moved at the start of an
iteration. -/
def Obligations.HandlerReturnsToWhereItInterrupted : Prop :=
  ∀ (i : Instr) (s t : State), agentOf i = .rx → exec i s = .next t →
    (t.txPhase = s.txPhase ∧ t.txProg = s.txProg ∧ t.txHleft = s.txHleft ∧ t.fr = s.fr ∧ t.frChk = s.frChk
      ∧ t.cmp = s.cmp ∧ t.mf = s.mf)
    ∧ (s.txPhase ≠ .iter ∨ t.wr = s.wr → ∀ j, selectedByTxsel j t = selectedByTxsel j s)

/-! ### ControlLoop -/

/-- 45_control_loop.md R211: a HALTED iteration. -/
def Obligations.HaltedIterationOnlyKicksAndDelays : Prop :=
  ∀ (s : State) (x : BitVec 3), s.txPhase = .iter → s.enable = false →
    exec (.txIterHalted x) s =
      .next { s with txPhase := .halt, txHleft := s.cfg.haltDelay, trace := s.trace ++ [.kick] }

/-- 45_control_loop.md R212: an ENABLED iteration with a packet latches it, computes the checksum and builds the program of
its frame, ADVREAD and the pause; the slot and the read cursor do not change. -/
def Obligations.ReadyIterationLatchesAndBuildsTheFrame : Prop :=
  ∀ (s : State) (x : BitVec 2), s.txPhase = .iter → s.enable = true → s.rd ≠ s.wr → s.rd.toNat < 42 →
    exec (.txIterReady x) s = .next
      { s with fr := readSlot s.mem s.rd
               frChk := checksum (readSlot s.mem s.rd)
               txProg := frameProg s.cfg (validBytes (readSlot s.mem s.rd)) (checksum (readSlot s.mem s.rd))
                 ++ [.advread, .adv s.cfg.tPause]
               txPhase := .run
               trace := s.trace ++ [.kick] }

/-- 45_control_loop.md R213: an ENABLED iteration with the ring empty builds the pause. -/
def Obligations.EmptyIterationBuildsThePause : Prop :=
  ∀ (s : State) (x : BitVec 2), s.txPhase = .iter → s.enable = true → s.rd = s.wr →
    exec (.txIterEmpty x) s =
      .next { s with txProg := [.adv s.cfg.tPause], txPhase := .run, trace := s.trace ++ [.kick] }

/-- 45_control_loop.md R214, TX_RUN_ADV and TX_RUN_END: both leave the slots, the cursors and the flag alone. The clause on
UOP_ADV is the model's: R214 and 30_encoding.md R97 say only that TX_RUN_ADV executes the micro-operation ADV(d), and that
UOP_ADV presented as an operation has the effect of TX_RUN_ADV is log entry 13 (DEDUCED). -/
def Obligations.RunAdvancesOrEndsTheIteration : Prop :=
  ∀ (s : State) (x : BitVec 2) (z : BitVec 1), s.txPhase = .run →
    (∀ d rest, s.txProg = .adv d :: rest →
      exec (.txRunAdv x) s = .next { s with cmp := s.cmp + d, txProg := rest, txPhase := .wait }
      ∧ exec (.uopAdv d) s = .next { s with cmp := s.cmp + d, txProg := rest, txPhase := .wait })
    ∧ (s.txProg = [] → exec (.txRunEnd x z) s = .next { s with txPhase := .iter })

/-- 45_control_loop.md R214, TX_RUN_ADVREAD: the slot at the read cursor is cleared, the cursor advances, the head is dropped,
the phase stays RUN. The case of UOP_ADVREAD is the model's: R214, 43_packet_ring.md R172 and 30_encoding.md R97 say only that
TX_RUN_ADVREAD executes the micro-operation ADVREAD, and that UOP_ADVREAD presented as an operation has the effect of
TX_RUN_ADVREAD is log entry 13 (DEDUCED). -/
def Obligations.RunAdvreadClearsTheSlotSent : Prop :=
  ∀ (s : State) (rest : List UOp) (i : Instr), ((∃ x, i = .txRunAdvread x) ∨ ∃ x, i = .uopAdvread x) →
    s.txPhase = .run → s.txProg = .advread :: rest → Memory.wf s.mem = true → s.rd.toNat < 42 →
    ∃ t, exec i s = .next t ∧ t = { s with mem := t.mem, rd := t.rd, txProg := rest } ∧ t.rd.toNat = (s.rd.toNat + 1) % 42
      ∧ (∀ f, t.mem.read (cellAddr s.rd f) = 0)
      ∧ ∀ a, (∀ f, a ≠ cellAddr s.rd f) → t.mem.read a = s.mem.read a

/-- 45_control_loop.md R215: TX_WAIT consumes the match and goes on running. -/
def Obligations.TxWaitConsumesTheMatch : Prop :=
  ∀ (s : State) (x : BitVec 4), s.txPhase = .wait → s.mf = true →
    exec (.txWait x) s = .next { s with mf := false, txPhase := .run }

/-- 45_control_loop.md R216: TX_HALT ends the HALTED delay. -/
def Obligations.TxHaltEndsTheDelay : Prop :=
  ∀ (s : State) (x : BitVec 4), s.txPhase = .halt → s.txHleft = 0 →
    exec (.txHalt x) s = .next { s with txPhase := .iter }

/-- 30_encoding.md R98 and 00_scope.md R12: a control loop step that TXSEL does not select, a wait without a match, a delay
that has not run down, and a micro-operation that is not at the head of the running program are not taken. That nothing
changes then is how the model takes "TX has no step" (log entry 8), and what enables a micro-operation presented as an
operation is the model's deduction (log entry 13). -/
def Obligations.StepNotEnabledIsNotTaken : Prop :=
  (∀ (i : Instr) (s : State), agentOf i = .tx → selectedByTxsel i s = false → exec i s = .next s)
  ∧ (∀ (s : State) (x : BitVec 4), s.mf = false → exec (.txWait x) s = .next s)
  ∧ (∀ (s : State) (x : BitVec 4), s.txHleft ≠ 0 → exec (.txHalt x) s = .next s)
  ∧ (∀ (s : State) (d : Ticks), (s.txPhase ≠ .run ∨ s.txProg.head? ≠ some (.adv d)) → exec (.uopAdv d) s = .next s)
  ∧ (∀ (s : State) (x : BitVec 16), (s.txPhase ≠ .run ∨ s.txProg.head? ≠ some .advread) →
      exec (.uopAdvread x) s = .next s)

/-- 45_control_loop.md R217: each step that begins an iteration emits exactly one Kick, in both states of the loop, and no
other operation emits one. -/
def Obligations.OneKickPerIteration : Prop :=
  ∀ (i : Instr) (s t : State), i ≠ .envReset → exec i s = .next t →
    kicks t.trace = kicks s.trace + (if beginsIteration i && selectedByTxsel i s then 1 else 0)

/-- 44_async_receiver.md R191 to R193 and R196: flow control is released once for every byte received, address or data,
stored or dropped, and by nothing else. -/
def Obligations.OneReleasePerByte : Prop :=
  ∀ (i : Instr) (s t : State), i ≠ .envReset → exec i s = .next t →
    ((∃ b, i = .rxAddr b ∨ i = .rxData b) → releases t.trace = releases s.trace + 1)
    ∧ ((∀ b, i ≠ .rxAddr b ∧ i ≠ .rxData b) → releases t.trace = releases s.trace)

/-- 45_control_loop.md R218 and R219: the enable level is read by the steps that begin an iteration and by nothing else, so a
change of it never alters what an iteration in progress does. -/
def Obligations.EnableIsReadOnlyWhenAnIterationBegins : Prop :=
  ∀ (i : Instr) (s : State) (v : Bool), (beginsIteration i = false ∨ s.txPhase ≠ .iter) → (∀ e, i ≠ .envEnable e) →
    exec i { s with enable := v } = mapNext (fun t => { t with enable := v }) (exec i s)

/-! ### The outside world, the contexts, the observers -/

/-- 45_control_loop.md R218: ENV_ENABLE sets the level and nothing else. -/
def Obligations.EnvEnableSetsOnlyTheLevel : Prop :=
  ∀ (s : State) (v : Bool), exec (.envEnable v) s = .next { s with enable := v }

/-- 70_reset_and_hazards.md R261 and 10_state.md R33: from any state, ENV_RESET puts every register and every slot field at
its reset value; the level of `enable` and the build stay. -/
def Obligations.EnvResetReinitialisesEverything : Prop :=
  ∀ s : State, ∃ t, exec .envReset s = .next t
    ∧ t.cnt = s.cfg.cntReset ∧ t.cmp = s.cfg.cmpReset ∧ t.mf = false ∧ t.pin = s.cfg.pinReset
    ∧ t.rxOff = 0 ∧ t.rxOvf = false ∧ t.wr = 0 ∧ t.rd = 0 ∧ (∀ a, t.mem.read a = 0)
    ∧ t.fr = ⟨0, 0, 0, 0, 0⟩ ∧ t.frChk = 0 ∧ t.txPhase = .iter ∧ t.txProg = [] ∧ t.txHleft = 0
    ∧ t.now = 0 ∧ t.trace = [] ∧ t.enable = s.enable ∧ t.cfg = s.cfg

/-- 10_state.md R33, with the default values of its parameters (00_scope.md R8): what the machine's reset state holds. -/
def Obligations.ResetStateHoldsTheResetValues : Prop :=
  State.reset.cnt = 0 ∧ State.reset.cmp = 0 ∧ State.reset.mf = false ∧ State.reset.pin = false
  ∧ State.reset.rxOff = 0 ∧ State.reset.rxOvf = false ∧ State.reset.wr = 0 ∧ State.reset.rd = 0
  ∧ (∀ i, readSlot State.reset.mem i = ⟨0, 0, 0, 0, 0⟩)
  ∧ State.reset.fr = ⟨0, 0, 0, 0, 0⟩ ∧ State.reset.frChk = 0
  ∧ State.reset.txPhase = .iter ∧ State.reset.txProg = [] ∧ State.reset.txHleft = 0
  ∧ State.reset.now = 0 ∧ State.reset.trace = []

/-- 10_state.md R31: the ownership table. A receiver step changes only the receiver's registers, the write cursor, the slot
at the write cursor and the trace; a control loop step changes only the sequencer, the frame registers, the target, the read
cursor, the slot at the read cursor and the trace, and clears the flag but never sets it; a tick changes only the counter,
the pin, the flag, the delay, the time and the trace, and never clears the flag. -/
def Obligations.EachAgentWritesOnlyWhatItOwns : Prop :=
  ∀ (i : Instr) (s t : State), exec i s = .next t →
    (agentOf i = .rx →
      t = { s with rxOff := t.rxOff, rxOvf := t.rxOvf, wr := t.wr, mem := t.mem, trace := t.trace }
      ∧ ∀ a, (∀ f, a ≠ cellAddr s.wr f) → t.mem.read a = s.mem.read a)
    ∧ (agentOf i = .tx →
      t = { s with txPhase := t.txPhase, txProg := t.txProg, txHleft := t.txHleft, fr := t.fr, frChk := t.frChk,
                   cmp := t.cmp, mf := t.mf, rd := t.rd, mem := t.mem, trace := t.trace }
      ∧ (t.mf = true → s.mf = true)
      ∧ ∀ a, (∀ f, a ≠ cellAddr s.rd f) → t.mem.read a = s.mem.read a)
    ∧ (agentOf i = .hw →
      t = { s with cnt := t.cnt, pin := t.pin, mf := t.mf, txHleft := t.txHleft, now := t.now, trace := t.trace }
      ∧ (s.mf = true → t.mf = true))

/-- 20_memory.md R72: while the cursors differ, a receiver step and a control loop step give the same state in either order,
with the same events in the trace in one order or the other; the one exception is a commit at the beginning of an iteration. -/
def Obligations.ReceiverAndControlLoopCommute : Prop :=
  ∀ (e i : Instr) (s t : State), s.Inv → s.wr ≠ s.rd → agentOf e = .rx → agentOf i = .tx → exec e s = .next t →
    (beginsIteration i = false ∨ t.wr = s.wr) →
    ∃ a b, runOps [e, i] s = .next a ∧ runOps [i, e] s = .next b ∧ { a with trace := [] } = { b with trace := [] }
      ∧ a.trace.Perm b.trace

/-- 60_exceptions.md R234: a bus event and a tick that fall together give the same state in either order, with the
same events in the trace in one order or the other. -/
def Obligations.ReceiverAndTickCommute : Prop :=
  ∀ (e : Instr) (s : State), s.inRange = true → agentOf e = .rx →
    ∃ a b, runOps [e, .wsTick] s = .next a ∧ runOps [.wsTick, e] s = .next b
      ∧ { a with trace := [] } = { b with trace := [] } ∧ a.trace.Perm b.trace

/-- 60_exceptions.md R234 and R231: in range, at most one of the conditions of R231 applies to a receiver step, and what
the step then does is what R231 says: a byte too many is dropped and the packet marked, an empty stop and a reserved event
change nothing, and an overrun carries on and reports nothing (no flag, no event but the byte's own release), a commit that
makes `wr = rd` leaving all 41 packets unread before it, and its own, out of reach. That `full` stands for a commit that made
`wr = rd` before is the model's choice (log entry 14). -/
def Obligations.AtMostOneConditionPerReceiverStep : Prop :=
  ∀ (full : Bool) (i : Instr) (s t : State), s.inRange = true → agentOf i = .rx → exec i s = .next t →
    (∀ c c' : Condition, c.appliesTo full i s → c'.appliesTo full i s → c = c')
    ∧ (isOverlong i s → t = { s with rxOvf := true, trace := s.trace ++ [.rel] })
    ∧ (isEmptyStop i s ∨ isRsvdEvent i → t = s)
    ∧ (isOverrun full i s →
      t = { s with mem := t.mem, wr := t.wr, rxOff := t.rxOff, trace := t.trace }
      ∧ (t.trace = s.trace ∨ ((∃ d, i = .rxData d) ∧ t.trace = s.trace ++ [.rel]))
      ∧ (t.wr ≠ s.wr → t.wr = t.rd → s.avail = 41 ∧ t.ready = false ∧ t.unread = []))

/-- 10_state.md R34: no enabling condition and no value a step computes depends on the observer variables. -/
def Obligations.ObserversInfluenceNothing : Prop :=
  ∀ (i : Instr) (s : State) (n : Nat) (tr : List Event),
    mapNext State.unobserved (exec i { s with now := n, trace := tr }) = mapNext State.unobserved (exec i s)
end

