-- ==== Sys2Proof/Laws/Memory.lean ====
section
/-! SUPPORT. Laws/Memory.lean: the slot memory. A read after a write, the canonical form that every operation keeps, and
equality of canonical memories (20_memory.md R60 to R67). -/

namespace Sys2Proof.Machine

theorem Memory.risesFrom_cons {lo k : Nat} {v : Byte} {t : Memory} :
    Memory.risesFrom lo ((k, v) :: t) = true ↔ lo ≤ k ∧ v ≠ Memory.unlisted ∧ Memory.risesFrom (k + 1) t = true := by
  simp [Memory.risesFrom, and_assoc]

theorem Memory.risesFrom_weaken {lo hi : Nat} {m : Memory} (h : Memory.risesFrom hi m = true) (hl : lo ≤ hi) :
    Memory.risesFrom lo m = true := by
  cases m with
  | nil => rfl
  | cons c t =>
    obtain ⟨h1, h2, h3⟩ := Memory.risesFrom_cons.mp h
    exact Memory.risesFrom_cons.mpr ⟨by omega, h2, h3⟩

/-- An address below all listed ones reads as the unlisted value. -/
theorem Memory.read_below {m : Memory} {lo a : Nat} (h : Memory.risesFrom lo m = true) (ha : a < lo) :
    Memory.read m a = Memory.unlisted := by
  induction m generalizing lo with
  | nil => rfl
  | cons c t ih =>
    obtain ⟨h1, _, h3⟩ := Memory.risesFrom_cons.mp h
    simp only [Memory.read]
    rw [if_neg (by omega)]
    exact ih h3 (by omega)

/-- A write leaves every other cell alone. -/
theorem Memory.read_write_other {m : Memory} {a b : Nat} {v : Byte} (h : b ≠ a) :
    Memory.read (Memory.write m a v) b = Memory.read m b := by
  induction m with
  | nil => simp only [Memory.write]; split <;> simp [Memory.read, Ne.symm h]
  | cons c t ih =>
    obtain ⟨k, w⟩ := c
    simp only [Memory.write]
    split
    · simp only [Memory.read, ih]
    · split
      · subst k; split <;> simp [Memory.read, Ne.symm h]
      · split
        · rfl
        · simp [Memory.read, Ne.symm h]

/-- A read after a write to the same cell gives the value written. -/
theorem Memory.read_write_same {m : Memory} {lo a : Nat} {v : Byte} (h : Memory.risesFrom lo m = true) :
    Memory.read (Memory.write m a v) a = v := by
  induction m generalizing lo with
  | nil => simp only [Memory.write]; split <;> simp_all [Memory.read]
  | cons c t ih =>
    obtain ⟨k, w⟩ := c
    obtain ⟨_, _, h3⟩ := Memory.risesFrom_cons.mp h
    simp only [Memory.write]
    split
    · simp only [Memory.read]
      rw [if_neg (by omega)]
      exact ih h3
    · split
      · split
        · rename_i hv; rw [hv]; exact Memory.read_below h3 (by omega)
        · simp [Memory.read]
      · split
        · rename_i hk hka hv
          rw [hv]
          exact Memory.read_below (lo := k) (Memory.risesFrom_cons.mpr ⟨le_refl k, (Memory.risesFrom_cons.mp h).2⟩) (by omega)
        · simp [Memory.read]

theorem Memory.risesFrom_write {m : Memory} {lo a : Nat} {v : Byte} (h : Memory.risesFrom lo m = true) (ha : lo ≤ a) :
    Memory.risesFrom lo (Memory.write m a v) = true := by
  induction m generalizing lo with
  | nil =>
    simp only [Memory.write]
    split
    · rfl
    · rename_i hv; exact Memory.risesFrom_cons.mpr ⟨ha, hv, rfl⟩
  | cons c t ih =>
    obtain ⟨k, w⟩ := c
    obtain ⟨h1, h2, h3⟩ := Memory.risesFrom_cons.mp h
    simp only [Memory.write]
    split
    · exact Memory.risesFrom_cons.mpr ⟨h1, h2, ih h3 (by omega)⟩
    · split
      · subst k
        split
        · exact Memory.risesFrom_weaken h3 (by omega)
        · rename_i hv; exact Memory.risesFrom_cons.mpr ⟨ha, hv, h3⟩
      · split
        · exact h
        · rename_i hk hka hv
          exact Memory.risesFrom_cons.mpr ⟨ha, hv, Memory.risesFrom_cons.mpr ⟨by omega, h2, h3⟩⟩

/-- A cell the spec gives a slot, with a value its field can hold. -/
def cellFits (a : Nat) (v : Byte) : Prop := a < 5 * Config.cap ∧ (a % 5 = 4 → v.toNat < 4)

theorem Memory.cellsExist_iff {m : Memory} : Memory.cellsExist m = true ↔ ∀ c ∈ m, cellFits c.1 c.2 := by
  simp only [Memory.cellsExist, cellFits, List.all_eq_true, Bool.and_eq_true, Bool.or_eq_true, decide_eq_true_eq, bne_iff_ne,
    ne_eq]
  constructor
  · intro h c hc
    exact ⟨(h c hc).1, fun h4 => (h c hc).2.resolve_left (not_not_intro h4)⟩
  · intro h c hc
    exact ⟨(h c hc).1, or_iff_not_imp_left.mpr fun h4 => (h c hc).2 (not_not.mp h4)⟩

theorem Memory.mem_write {m : Memory} {a : Nat} {v : Byte} {c : Host.Cell} (h : c ∈ Memory.write m a v) :
    c ∈ m ∨ c = (a, v) := by
  induction m with
  | nil => simp only [Memory.write] at h; split at h <;> simp_all
  | cons d t ih =>
    obtain ⟨k, w⟩ := d
    simp only [Memory.write] at h
    split at h
    · rcases List.mem_cons.mp h with h | h
      · simp [h]
      · rcases ih h with h | h <;> simp [h]
    · split at h
      · split at h
        · simp [h]
        · rcases List.mem_cons.mp h with h | h <;> simp [h]
      · split at h
        · exact .inl h
        · rcases List.mem_cons.mp h with h | h
          · simp [h]
          · exact .inl h

/-- A write of a value its field can hold, to a cell that exists, keeps the canonical form. -/
theorem Memory.wf_write {m : Memory} {a : Nat} {v : Byte} (h : Memory.wf m = true) (hc : cellFits a v) :
    Memory.wf (Memory.write m a v) = true := by
  simp only [Memory.wf, Bool.and_eq_true] at h ⊢
  refine ⟨Memory.risesFrom_write h.1 (by omega), Memory.cellsExist_iff.mpr ?_⟩
  intro c hm
  rcases Memory.mem_write hm with hm | rfl
  · exact Memory.cellsExist_iff.mp h.2 c hm
  · exact hc

theorem Memory.wf_nil : Memory.wf [] = true := rfl

theorem Memory.wf_rises {m : Memory} (h : Memory.wf m = true) : Memory.risesFrom 0 m = true := by
  simp only [Memory.wf, Bool.and_eq_true] at h; exact h.1

theorem Memory.read_write_wf {m : Memory} {a : Nat} {v : Byte} (h : Memory.wf m = true) :
    Memory.read (Memory.write m a v) a = v := Memory.read_write_same (Memory.wf_rises h)

/-- Two rising memories that read alike at every address are the same list. -/
theorem Memory.rises_ext {m n : Memory} {lo : Nat} (hm : Memory.risesFrom lo m = true) (hn : Memory.risesFrom lo n = true)
    (h : ∀ a, Memory.read m a = Memory.read n a) : m = n := by
  induction m generalizing n lo with
  | nil =>
    cases n with
    | nil => rfl
    | cons c t =>
      obtain ⟨k, v⟩ := c
      have := h k
      simp only [Memory.read, if_true] at this
      exact absurd this.symm (Memory.risesFrom_cons.mp hn).2.1
  | cons c t ih =>
    obtain ⟨k, v⟩ := c
    obtain ⟨h1, h2, h3⟩ := Memory.risesFrom_cons.mp hm
    cases n with
    | nil =>
      have := h k
      simp only [Memory.read, if_true] at this
      exact absurd this h2
    | cons d u =>
      obtain ⟨j, w⟩ := d
      obtain ⟨g1, g2, g3⟩ := Memory.risesFrom_cons.mp hn
      have hkj : k = j := by
        rcases Nat.lt_trichotomy k j with hlt | heq | hgt
        · have := h k
          simp only [Memory.read, if_true] at this
          rw [if_neg (by omega), Memory.read_below g3 (by omega)] at this
          exact absurd this h2
        · exact heq
        · have := h j
          simp only [Memory.read, if_true] at this
          rw [if_neg (by omega), Memory.read_below h3 (by omega)] at this
          exact absurd this.symm g2
      subst hkj
      have hv : v = w := by have := h k; simpa only [Memory.read, if_true] using this
      subst hv
      congr 1
      refine ih h3 g3 fun a => ?_
      by_cases hk : a = k
      · subst hk; rw [Memory.read_below h3 (by omega), Memory.read_below g3 (by omega)]
      · have := h a
        simpa only [Memory.read, if_neg (Ne.symm hk)] using this

/-- Equal memories are equal data: canonical memories that read alike are the same list. -/
theorem Memory.wf_ext {m n : Memory} (hm : Memory.wf m = true) (hn : Memory.wf n = true)
    (h : ∀ a, Memory.read m a = Memory.read n a) : m = n :=
  Memory.rises_ext (Memory.wf_rises hm) (Memory.wf_rises hn) h

/-- The cells of the slots do not meet. -/
theorem cellAddr_inj {i j : Cursor} {f g : Field} (h : cellAddr i f = cellAddr j g) : i = j ∧ f = g := by
  have hf : f.code < 5 := by cases f <;> simp [Field.code]
  have hg : g.code < 5 := by cases g <;> simp [Field.code]
  simp only [cellAddr] at h
  refine ⟨BitVec.eq_of_toNat_eq (by omega), ?_⟩
  have hc : f.code = g.code := by omega
  cases f <;> cases g <;> simp_all [Field.code]

theorem cellAddr_lt {i : Cursor} {f : Field} (h : slotExists i = true) : cellAddr i f < 5 * Config.cap := by
  have hf : f.code < 5 := by cases f <;> simp [Field.code]
  simp only [slotExists, decide_eq_true_eq] at h
  simp only [cellAddr]; omega

theorem cellFits_byte {i : Cursor} {k : Nat} {d : Byte} (h : slotExists i = true) : cellFits (cellAddr i (Field.byte k)) d := by
  refine ⟨cellAddr_lt h, fun h4 => ?_⟩
  have : (Field.byte k).code < 4 := by unfold Field.byte; split <;> simp [Field.code]
  simp only [cellAddr] at h4; omega

theorem cellFits_usage {i : Cursor} {u : Usage} (h : slotExists i = true) : cellFits (cellAddr i .uc) (u.setWidth 8) := by
  refine ⟨cellAddr_lt h, fun _ => ?_⟩
  have := u.isLt
  simp only [BitVec.toNat_setWidth]; omega

theorem cellFits_zero {i : Cursor} {f : Field} (h : slotExists i = true) : cellFits (cellAddr i f) 0 :=
  ⟨cellAddr_lt h, fun _ => by decide⟩

/-- What storing a data byte does to the memory: that one cell holds the byte, every other cell is as before. -/
theorem writeByte_spec {m : Memory} {i : Cursor} {k : Nat} {d : Byte} (h : Memory.wf m = true) (hi : slotExists i = true) :
    Memory.wf (writeByte m i k d) = true ∧ (writeByte m i k d).read (cellAddr i (Field.byte k)) = d
      ∧ ∀ a, a ≠ cellAddr i (Field.byte k) → (writeByte m i k d).read a = m.read a :=
  ⟨Memory.wf_write h (cellFits_byte hi), Memory.read_write_wf h, fun _ ha => Memory.read_write_other ha⟩

/-- What writing a usage count does to the memory. -/
theorem writeUsage_spec {m : Memory} {i : Cursor} {u : Usage} (h : Memory.wf m = true) (hi : slotExists i = true) :
    Memory.wf (writeUsage m i u) = true ∧ (writeUsage m i u).read (cellAddr i .uc) = u.setWidth 8
      ∧ ∀ a, a ≠ cellAddr i .uc → (writeUsage m i u).read a = m.read a :=
  ⟨Memory.wf_write h (cellFits_usage hi), Memory.read_write_wf h, fun _ ha => Memory.read_write_other ha⟩

/-- What clearing a slot does to the memory: its five cells hold 0, every other cell is as before. -/
theorem clearSlot_spec {m : Memory} {i : Cursor} (h : Memory.wf m = true) (hi : slotExists i = true) :
    Memory.wf (clearSlot m i) = true ∧ (∀ f, (clearSlot m i).read (cellAddr i f) = 0)
      ∧ ∀ a, (∀ f, a ≠ cellAddr i f) → (clearSlot m i).read a = m.read a := by
  have w0 := Memory.wf_write h (cellFits_zero (f := .b0) hi)
  have w1 := Memory.wf_write w0 (cellFits_zero (f := .b1) hi)
  have w2 := Memory.wf_write w1 (cellFits_zero (f := .b2) hi)
  have w3 := Memory.wf_write w2 (cellFits_zero (f := .b3) hi)
  have ne : ∀ {f g : Field}, f ≠ g → cellAddr i f ≠ cellAddr i g := fun hfg he => hfg (cellAddr_inj he).2
  refine ⟨Memory.wf_write w3 (cellFits_zero hi), fun f => ?_, fun a ha => ?_⟩
  · unfold clearSlot
    cases f with
    | uc => exact Memory.read_write_wf w3
    | b3 => rw [Memory.read_write_other (ne (by decide))]; exact Memory.read_write_wf w2
    | b2 =>
      rw [Memory.read_write_other (ne (by decide)), Memory.read_write_other (ne (by decide))]
      exact Memory.read_write_wf w1
    | b1 =>
      rw [Memory.read_write_other (ne (by decide)), Memory.read_write_other (ne (by decide)),
        Memory.read_write_other (ne (by decide))]
      exact Memory.read_write_wf w0
    | b0 =>
      rw [Memory.read_write_other (ne (by decide)), Memory.read_write_other (ne (by decide)),
        Memory.read_write_other (ne (by decide)), Memory.read_write_other (ne (by decide))]
      exact Memory.read_write_wf h
  · unfold clearSlot
    rw [Memory.read_write_other (ha _), Memory.read_write_other (ha _), Memory.read_write_other (ha _),
      Memory.read_write_other (ha _), Memory.read_write_other (ha _)]

/-- A slot reads the same in two memories that agree on its five cells. -/
theorem readSlot_congr {m n : Memory} {i : Cursor} (h : ∀ f, m.read (cellAddr i f) = n.read (cellAddr i f)) :
    readSlot m i = readSlot n i := by
  simp only [readSlot, h]

theorem reset_memory_wf : Memory.wf State.reset.mem = true := rfl

end Sys2Proof.Machine
end

