-- ==== Sys2Proof/Laws/State.lean ====
section
/-! SUPPORT. Laws/State.lean: every field of the state after every named update, each true by rfl, so that no proof unfolds
a record update. The update that branches, `countTick`, has its law in Laws/Ops.lean. -/

namespace Sys2Proof.Machine

section
variable (s : State) (e : Event)

@[simp] theorem State.emit_cfg : (s.emit e).cfg = s.cfg := rfl
@[simp] theorem State.emit_cnt : (s.emit e).cnt = s.cnt := rfl
@[simp] theorem State.emit_cmp : (s.emit e).cmp = s.cmp := rfl
@[simp] theorem State.emit_mf : (s.emit e).mf = s.mf := rfl
@[simp] theorem State.emit_pin : (s.emit e).pin = s.pin := rfl
@[simp] theorem State.emit_rxOff : (s.emit e).rxOff = s.rxOff := rfl
@[simp] theorem State.emit_rxOvf : (s.emit e).rxOvf = s.rxOvf := rfl
@[simp] theorem State.emit_wr : (s.emit e).wr = s.wr := rfl
@[simp] theorem State.emit_rd : (s.emit e).rd = s.rd := rfl
@[simp] theorem State.emit_mem : (s.emit e).mem = s.mem := rfl
@[simp] theorem State.emit_fr : (s.emit e).fr = s.fr := rfl
@[simp] theorem State.emit_frChk : (s.emit e).frChk = s.frChk := rfl
@[simp] theorem State.emit_txPhase : (s.emit e).txPhase = s.txPhase := rfl
@[simp] theorem State.emit_txProg : (s.emit e).txProg = s.txProg := rfl
@[simp] theorem State.emit_txHleft : (s.emit e).txHleft = s.txHleft := rfl
@[simp] theorem State.emit_enable : (s.emit e).enable = s.enable := rfl
@[simp] theorem State.emit_now : (s.emit e).now = s.now := rfl
@[simp] theorem State.emit_trace : (s.emit e).trace = s.trace ++ [e] := rfl
@[simp] theorem State.emit_answer : (s.emit e).answer = s.answer := rfl
@[simp] theorem State.emit_pending : (s.emit e).pending = s.pending := rfl
@[simp] theorem State.emit_choices : (s.emit e).choices = s.choices := rfl

end

section
variable (s : State)

@[simp] theorem State.countDelay_cfg : (s.countDelay).cfg = s.cfg := rfl
@[simp] theorem State.countDelay_cnt : (s.countDelay).cnt = s.cnt := rfl
@[simp] theorem State.countDelay_cmp : (s.countDelay).cmp = s.cmp := rfl
@[simp] theorem State.countDelay_mf : (s.countDelay).mf = s.mf := rfl
@[simp] theorem State.countDelay_pin : (s.countDelay).pin = s.pin := rfl
@[simp] theorem State.countDelay_rxOff : (s.countDelay).rxOff = s.rxOff := rfl
@[simp] theorem State.countDelay_rxOvf : (s.countDelay).rxOvf = s.rxOvf := rfl
@[simp] theorem State.countDelay_wr : (s.countDelay).wr = s.wr := rfl
@[simp] theorem State.countDelay_rd : (s.countDelay).rd = s.rd := rfl
@[simp] theorem State.countDelay_mem : (s.countDelay).mem = s.mem := rfl
@[simp] theorem State.countDelay_fr : (s.countDelay).fr = s.fr := rfl
@[simp] theorem State.countDelay_frChk : (s.countDelay).frChk = s.frChk := rfl
@[simp] theorem State.countDelay_txPhase : (s.countDelay).txPhase = s.txPhase := rfl
@[simp] theorem State.countDelay_txProg : (s.countDelay).txProg = s.txProg := rfl
@[simp] theorem State.countDelay_txHleft : (s.countDelay).txHleft = s.txHleft - 1 := rfl
@[simp] theorem State.countDelay_enable : (s.countDelay).enable = s.enable := rfl
@[simp] theorem State.countDelay_now : (s.countDelay).now = s.now := rfl
@[simp] theorem State.countDelay_trace : (s.countDelay).trace = s.trace := rfl
@[simp] theorem State.countDelay_answer : (s.countDelay).answer = s.answer := rfl
@[simp] theorem State.countDelay_pending : (s.countDelay).pending = s.pending := rfl
@[simp] theorem State.countDelay_choices : (s.countDelay).choices = s.choices := rfl

end

section
variable (s : State) (d : Ticks)

@[simp] theorem State.advanceTarget_cfg : (s.advanceTarget d).cfg = s.cfg := rfl
@[simp] theorem State.advanceTarget_cnt : (s.advanceTarget d).cnt = s.cnt := rfl
@[simp] theorem State.advanceTarget_cmp : (s.advanceTarget d).cmp = add16 s.cmp d := rfl
@[simp] theorem State.advanceTarget_mf : (s.advanceTarget d).mf = s.mf := rfl
@[simp] theorem State.advanceTarget_pin : (s.advanceTarget d).pin = s.pin := rfl
@[simp] theorem State.advanceTarget_rxOff : (s.advanceTarget d).rxOff = s.rxOff := rfl
@[simp] theorem State.advanceTarget_rxOvf : (s.advanceTarget d).rxOvf = s.rxOvf := rfl
@[simp] theorem State.advanceTarget_wr : (s.advanceTarget d).wr = s.wr := rfl
@[simp] theorem State.advanceTarget_rd : (s.advanceTarget d).rd = s.rd := rfl
@[simp] theorem State.advanceTarget_mem : (s.advanceTarget d).mem = s.mem := rfl
@[simp] theorem State.advanceTarget_fr : (s.advanceTarget d).fr = s.fr := rfl
@[simp] theorem State.advanceTarget_frChk : (s.advanceTarget d).frChk = s.frChk := rfl
@[simp] theorem State.advanceTarget_txPhase : (s.advanceTarget d).txPhase = s.txPhase := rfl
@[simp] theorem State.advanceTarget_txProg : (s.advanceTarget d).txProg = s.txProg := rfl
@[simp] theorem State.advanceTarget_txHleft : (s.advanceTarget d).txHleft = s.txHleft := rfl
@[simp] theorem State.advanceTarget_enable : (s.advanceTarget d).enable = s.enable := rfl
@[simp] theorem State.advanceTarget_now : (s.advanceTarget d).now = s.now := rfl
@[simp] theorem State.advanceTarget_trace : (s.advanceTarget d).trace = s.trace := rfl
@[simp] theorem State.advanceTarget_answer : (s.advanceTarget d).answer = s.answer := rfl
@[simp] theorem State.advanceTarget_pending : (s.advanceTarget d).pending = s.pending := rfl
@[simp] theorem State.advanceTarget_choices : (s.advanceTarget d).choices = s.choices := rfl

end

section
variable (s : State)

@[simp] theorem State.consumeMatch_cfg : (s.consumeMatch).cfg = s.cfg := rfl
@[simp] theorem State.consumeMatch_cnt : (s.consumeMatch).cnt = s.cnt := rfl
@[simp] theorem State.consumeMatch_cmp : (s.consumeMatch).cmp = s.cmp := rfl
@[simp] theorem State.consumeMatch_mf : (s.consumeMatch).mf = false := rfl
@[simp] theorem State.consumeMatch_pin : (s.consumeMatch).pin = s.pin := rfl
@[simp] theorem State.consumeMatch_rxOff : (s.consumeMatch).rxOff = s.rxOff := rfl
@[simp] theorem State.consumeMatch_rxOvf : (s.consumeMatch).rxOvf = s.rxOvf := rfl
@[simp] theorem State.consumeMatch_wr : (s.consumeMatch).wr = s.wr := rfl
@[simp] theorem State.consumeMatch_rd : (s.consumeMatch).rd = s.rd := rfl
@[simp] theorem State.consumeMatch_mem : (s.consumeMatch).mem = s.mem := rfl
@[simp] theorem State.consumeMatch_fr : (s.consumeMatch).fr = s.fr := rfl
@[simp] theorem State.consumeMatch_frChk : (s.consumeMatch).frChk = s.frChk := rfl
@[simp] theorem State.consumeMatch_txPhase : (s.consumeMatch).txPhase = s.txPhase := rfl
@[simp] theorem State.consumeMatch_txProg : (s.consumeMatch).txProg = s.txProg := rfl
@[simp] theorem State.consumeMatch_txHleft : (s.consumeMatch).txHleft = s.txHleft := rfl
@[simp] theorem State.consumeMatch_enable : (s.consumeMatch).enable = s.enable := rfl
@[simp] theorem State.consumeMatch_now : (s.consumeMatch).now = s.now := rfl
@[simp] theorem State.consumeMatch_trace : (s.consumeMatch).trace = s.trace := rfl
@[simp] theorem State.consumeMatch_answer : (s.consumeMatch).answer = s.answer := rfl
@[simp] theorem State.consumeMatch_pending : (s.consumeMatch).pending = s.pending := rfl
@[simp] theorem State.consumeMatch_choices : (s.consumeMatch).choices = s.choices := rfl

end

section
variable (s : State)

@[simp] theorem State.advanceRead_cfg : (s.advanceRead).cfg = s.cfg := rfl
@[simp] theorem State.advanceRead_cnt : (s.advanceRead).cnt = s.cnt := rfl
@[simp] theorem State.advanceRead_cmp : (s.advanceRead).cmp = s.cmp := rfl
@[simp] theorem State.advanceRead_mf : (s.advanceRead).mf = s.mf := rfl
@[simp] theorem State.advanceRead_pin : (s.advanceRead).pin = s.pin := rfl
@[simp] theorem State.advanceRead_rxOff : (s.advanceRead).rxOff = s.rxOff := rfl
@[simp] theorem State.advanceRead_rxOvf : (s.advanceRead).rxOvf = s.rxOvf := rfl
@[simp] theorem State.advanceRead_wr : (s.advanceRead).wr = s.wr := rfl
@[simp] theorem State.advanceRead_rd : (s.advanceRead).rd = incCap s.rd := rfl
@[simp] theorem State.advanceRead_mem : (s.advanceRead).mem = clearSlot s.mem s.rd := rfl
@[simp] theorem State.advanceRead_fr : (s.advanceRead).fr = s.fr := rfl
@[simp] theorem State.advanceRead_frChk : (s.advanceRead).frChk = s.frChk := rfl
@[simp] theorem State.advanceRead_txPhase : (s.advanceRead).txPhase = s.txPhase := rfl
@[simp] theorem State.advanceRead_txProg : (s.advanceRead).txProg = s.txProg := rfl
@[simp] theorem State.advanceRead_txHleft : (s.advanceRead).txHleft = s.txHleft := rfl
@[simp] theorem State.advanceRead_enable : (s.advanceRead).enable = s.enable := rfl
@[simp] theorem State.advanceRead_now : (s.advanceRead).now = s.now := rfl
@[simp] theorem State.advanceRead_trace : (s.advanceRead).trace = s.trace := rfl
@[simp] theorem State.advanceRead_answer : (s.advanceRead).answer = s.answer := rfl
@[simp] theorem State.advanceRead_pending : (s.advanceRead).pending = s.pending := rfl
@[simp] theorem State.advanceRead_choices : (s.advanceRead).choices = s.choices := rfl

end

section
variable (s : State) (u : Usage)

@[simp] theorem State.commit_cfg : (s.commit u).cfg = s.cfg := rfl
@[simp] theorem State.commit_cnt : (s.commit u).cnt = s.cnt := rfl
@[simp] theorem State.commit_cmp : (s.commit u).cmp = s.cmp := rfl
@[simp] theorem State.commit_mf : (s.commit u).mf = s.mf := rfl
@[simp] theorem State.commit_pin : (s.commit u).pin = s.pin := rfl
@[simp] theorem State.commit_rxOff : (s.commit u).rxOff = s.rxOff := rfl
@[simp] theorem State.commit_rxOvf : (s.commit u).rxOvf = s.rxOvf := rfl
@[simp] theorem State.commit_wr : (s.commit u).wr = incCap s.wr := rfl
@[simp] theorem State.commit_rd : (s.commit u).rd = s.rd := rfl
@[simp] theorem State.commit_mem : (s.commit u).mem = writeUsage s.mem s.wr u := rfl
@[simp] theorem State.commit_fr : (s.commit u).fr = s.fr := rfl
@[simp] theorem State.commit_frChk : (s.commit u).frChk = s.frChk := rfl
@[simp] theorem State.commit_txPhase : (s.commit u).txPhase = s.txPhase := rfl
@[simp] theorem State.commit_txProg : (s.commit u).txProg = s.txProg := rfl
@[simp] theorem State.commit_txHleft : (s.commit u).txHleft = s.txHleft := rfl
@[simp] theorem State.commit_enable : (s.commit u).enable = s.enable := rfl
@[simp] theorem State.commit_now : (s.commit u).now = s.now := rfl
@[simp] theorem State.commit_trace : (s.commit u).trace = s.trace := rfl
@[simp] theorem State.commit_answer : (s.commit u).answer = s.answer := rfl
@[simp] theorem State.commit_pending : (s.commit u).pending = s.pending := rfl
@[simp] theorem State.commit_choices : (s.commit u).choices = s.choices := rfl

end

section
variable (s : State) (d : Byte)

@[simp] theorem State.appendByte_cfg : (s.appendByte d).cfg = s.cfg := rfl
@[simp] theorem State.appendByte_cnt : (s.appendByte d).cnt = s.cnt := rfl
@[simp] theorem State.appendByte_cmp : (s.appendByte d).cmp = s.cmp := rfl
@[simp] theorem State.appendByte_mf : (s.appendByte d).mf = s.mf := rfl
@[simp] theorem State.appendByte_pin : (s.appendByte d).pin = s.pin := rfl
@[simp] theorem State.appendByte_rxOff : (s.appendByte d).rxOff = s.rxOff + 1 := rfl
@[simp] theorem State.appendByte_rxOvf : (s.appendByte d).rxOvf = s.rxOvf := rfl
@[simp] theorem State.appendByte_wr : (s.appendByte d).wr = s.wr := rfl
@[simp] theorem State.appendByte_rd : (s.appendByte d).rd = s.rd := rfl
@[simp] theorem State.appendByte_mem : (s.appendByte d).mem = writeByte s.mem s.wr s.rxOff.toNat d := rfl
@[simp] theorem State.appendByte_fr : (s.appendByte d).fr = s.fr := rfl
@[simp] theorem State.appendByte_frChk : (s.appendByte d).frChk = s.frChk := rfl
@[simp] theorem State.appendByte_txPhase : (s.appendByte d).txPhase = s.txPhase := rfl
@[simp] theorem State.appendByte_txProg : (s.appendByte d).txProg = s.txProg := rfl
@[simp] theorem State.appendByte_txHleft : (s.appendByte d).txHleft = s.txHleft := rfl
@[simp] theorem State.appendByte_enable : (s.appendByte d).enable = s.enable := rfl
@[simp] theorem State.appendByte_now : (s.appendByte d).now = s.now := rfl
@[simp] theorem State.appendByte_trace : (s.appendByte d).trace = s.trace := rfl
@[simp] theorem State.appendByte_answer : (s.appendByte d).answer = s.answer := rfl
@[simp] theorem State.appendByte_pending : (s.appendByte d).pending = s.pending := rfl
@[simp] theorem State.appendByte_choices : (s.appendByte d).choices = s.choices := rfl

end

section
variable (s : State)

@[simp] theorem State.restartPacket_cfg : (s.restartPacket).cfg = s.cfg := rfl
@[simp] theorem State.restartPacket_cnt : (s.restartPacket).cnt = s.cnt := rfl
@[simp] theorem State.restartPacket_cmp : (s.restartPacket).cmp = s.cmp := rfl
@[simp] theorem State.restartPacket_mf : (s.restartPacket).mf = s.mf := rfl
@[simp] theorem State.restartPacket_pin : (s.restartPacket).pin = s.pin := rfl
@[simp] theorem State.restartPacket_rxOff : (s.restartPacket).rxOff = 0 := rfl
@[simp] theorem State.restartPacket_rxOvf : (s.restartPacket).rxOvf = false := rfl
@[simp] theorem State.restartPacket_wr : (s.restartPacket).wr = s.wr := rfl
@[simp] theorem State.restartPacket_rd : (s.restartPacket).rd = s.rd := rfl
@[simp] theorem State.restartPacket_mem : (s.restartPacket).mem = s.mem := rfl
@[simp] theorem State.restartPacket_fr : (s.restartPacket).fr = s.fr := rfl
@[simp] theorem State.restartPacket_frChk : (s.restartPacket).frChk = s.frChk := rfl
@[simp] theorem State.restartPacket_txPhase : (s.restartPacket).txPhase = s.txPhase := rfl
@[simp] theorem State.restartPacket_txProg : (s.restartPacket).txProg = s.txProg := rfl
@[simp] theorem State.restartPacket_txHleft : (s.restartPacket).txHleft = s.txHleft := rfl
@[simp] theorem State.restartPacket_enable : (s.restartPacket).enable = s.enable := rfl
@[simp] theorem State.restartPacket_now : (s.restartPacket).now = s.now := rfl
@[simp] theorem State.restartPacket_trace : (s.restartPacket).trace = s.trace := rfl
@[simp] theorem State.restartPacket_answer : (s.restartPacket).answer = s.answer := rfl
@[simp] theorem State.restartPacket_pending : (s.restartPacket).pending = s.pending := rfl
@[simp] theorem State.restartPacket_choices : (s.restartPacket).choices = s.choices := rfl

end

section
variable (s : State)

@[simp] theorem State.latchPacket_cfg : (s.latchPacket).cfg = s.cfg := rfl
@[simp] theorem State.latchPacket_cnt : (s.latchPacket).cnt = s.cnt := rfl
@[simp] theorem State.latchPacket_cmp : (s.latchPacket).cmp = s.cmp := rfl
@[simp] theorem State.latchPacket_mf : (s.latchPacket).mf = s.mf := rfl
@[simp] theorem State.latchPacket_pin : (s.latchPacket).pin = s.pin := rfl
@[simp] theorem State.latchPacket_rxOff : (s.latchPacket).rxOff = s.rxOff := rfl
@[simp] theorem State.latchPacket_rxOvf : (s.latchPacket).rxOvf = s.rxOvf := rfl
@[simp] theorem State.latchPacket_wr : (s.latchPacket).wr = s.wr := rfl
@[simp] theorem State.latchPacket_rd : (s.latchPacket).rd = s.rd := rfl
@[simp] theorem State.latchPacket_mem : (s.latchPacket).mem = s.mem := rfl
@[simp] theorem State.latchPacket_fr : (s.latchPacket).fr = readSlot s.mem s.rd := rfl
@[simp] theorem State.latchPacket_frChk : (s.latchPacket).frChk = checksum (readSlot s.mem s.rd) := rfl
@[simp] theorem State.latchPacket_txPhase : (s.latchPacket).txPhase = s.txPhase := rfl
@[simp] theorem State.latchPacket_txProg : (s.latchPacket).txProg = s.txProg := rfl
@[simp] theorem State.latchPacket_txHleft : (s.latchPacket).txHleft = s.txHleft := rfl
@[simp] theorem State.latchPacket_enable : (s.latchPacket).enable = s.enable := rfl
@[simp] theorem State.latchPacket_now : (s.latchPacket).now = s.now := rfl
@[simp] theorem State.latchPacket_trace : (s.latchPacket).trace = s.trace := rfl
@[simp] theorem State.latchPacket_answer : (s.latchPacket).answer = s.answer := rfl
@[simp] theorem State.latchPacket_pending : (s.latchPacket).pending = s.pending := rfl
@[simp] theorem State.latchPacket_choices : (s.latchPacket).choices = s.choices := rfl

end

section
variable (s : State) (p : List UOp)

@[simp] theorem State.startProg_cfg : (s.startProg p).cfg = s.cfg := rfl
@[simp] theorem State.startProg_cnt : (s.startProg p).cnt = s.cnt := rfl
@[simp] theorem State.startProg_cmp : (s.startProg p).cmp = s.cmp := rfl
@[simp] theorem State.startProg_mf : (s.startProg p).mf = s.mf := rfl
@[simp] theorem State.startProg_pin : (s.startProg p).pin = s.pin := rfl
@[simp] theorem State.startProg_rxOff : (s.startProg p).rxOff = s.rxOff := rfl
@[simp] theorem State.startProg_rxOvf : (s.startProg p).rxOvf = s.rxOvf := rfl
@[simp] theorem State.startProg_wr : (s.startProg p).wr = s.wr := rfl
@[simp] theorem State.startProg_rd : (s.startProg p).rd = s.rd := rfl
@[simp] theorem State.startProg_mem : (s.startProg p).mem = s.mem := rfl
@[simp] theorem State.startProg_fr : (s.startProg p).fr = s.fr := rfl
@[simp] theorem State.startProg_frChk : (s.startProg p).frChk = s.frChk := rfl
@[simp] theorem State.startProg_txPhase : (s.startProg p).txPhase = .run := rfl
@[simp] theorem State.startProg_txProg : (s.startProg p).txProg = p := rfl
@[simp] theorem State.startProg_txHleft : (s.startProg p).txHleft = s.txHleft := rfl
@[simp] theorem State.startProg_enable : (s.startProg p).enable = s.enable := rfl
@[simp] theorem State.startProg_now : (s.startProg p).now = s.now := rfl
@[simp] theorem State.startProg_trace : (s.startProg p).trace = s.trace := rfl
@[simp] theorem State.startProg_answer : (s.startProg p).answer = s.answer := rfl
@[simp] theorem State.startProg_pending : (s.startProg p).pending = s.pending := rfl
@[simp] theorem State.startProg_choices : (s.startProg p).choices = s.choices := rfl

end

section
variable (s : State) (d : Ticks)

@[simp] theorem State.runAdv_cfg : (s.runAdv d).cfg = s.cfg := rfl
@[simp] theorem State.runAdv_cnt : (s.runAdv d).cnt = s.cnt := rfl
@[simp] theorem State.runAdv_cmp : (s.runAdv d).cmp = add16 s.cmp d := rfl
@[simp] theorem State.runAdv_mf : (s.runAdv d).mf = s.mf := rfl
@[simp] theorem State.runAdv_pin : (s.runAdv d).pin = s.pin := rfl
@[simp] theorem State.runAdv_rxOff : (s.runAdv d).rxOff = s.rxOff := rfl
@[simp] theorem State.runAdv_rxOvf : (s.runAdv d).rxOvf = s.rxOvf := rfl
@[simp] theorem State.runAdv_wr : (s.runAdv d).wr = s.wr := rfl
@[simp] theorem State.runAdv_rd : (s.runAdv d).rd = s.rd := rfl
@[simp] theorem State.runAdv_mem : (s.runAdv d).mem = s.mem := rfl
@[simp] theorem State.runAdv_fr : (s.runAdv d).fr = s.fr := rfl
@[simp] theorem State.runAdv_frChk : (s.runAdv d).frChk = s.frChk := rfl
@[simp] theorem State.runAdv_txPhase : (s.runAdv d).txPhase = .wait := rfl
@[simp] theorem State.runAdv_txProg : (s.runAdv d).txProg = s.txProg.tail := rfl
@[simp] theorem State.runAdv_txHleft : (s.runAdv d).txHleft = s.txHleft := rfl
@[simp] theorem State.runAdv_enable : (s.runAdv d).enable = s.enable := rfl
@[simp] theorem State.runAdv_now : (s.runAdv d).now = s.now := rfl
@[simp] theorem State.runAdv_trace : (s.runAdv d).trace = s.trace := rfl
@[simp] theorem State.runAdv_answer : (s.runAdv d).answer = s.answer := rfl
@[simp] theorem State.runAdv_pending : (s.runAdv d).pending = s.pending := rfl
@[simp] theorem State.runAdv_choices : (s.runAdv d).choices = s.choices := rfl

end

section
variable (s : State)

@[simp] theorem State.runAdvread_cfg : (s.runAdvread).cfg = s.cfg := rfl
@[simp] theorem State.runAdvread_cnt : (s.runAdvread).cnt = s.cnt := rfl
@[simp] theorem State.runAdvread_cmp : (s.runAdvread).cmp = s.cmp := rfl
@[simp] theorem State.runAdvread_mf : (s.runAdvread).mf = s.mf := rfl
@[simp] theorem State.runAdvread_pin : (s.runAdvread).pin = s.pin := rfl
@[simp] theorem State.runAdvread_rxOff : (s.runAdvread).rxOff = s.rxOff := rfl
@[simp] theorem State.runAdvread_rxOvf : (s.runAdvread).rxOvf = s.rxOvf := rfl
@[simp] theorem State.runAdvread_wr : (s.runAdvread).wr = s.wr := rfl
@[simp] theorem State.runAdvread_rd : (s.runAdvread).rd = incCap s.rd := rfl
@[simp] theorem State.runAdvread_mem : (s.runAdvread).mem = clearSlot s.mem s.rd := rfl
@[simp] theorem State.runAdvread_fr : (s.runAdvread).fr = s.fr := rfl
@[simp] theorem State.runAdvread_frChk : (s.runAdvread).frChk = s.frChk := rfl
@[simp] theorem State.runAdvread_txPhase : (s.runAdvread).txPhase = s.txPhase := rfl
@[simp] theorem State.runAdvread_txProg : (s.runAdvread).txProg = s.txProg.tail := rfl
@[simp] theorem State.runAdvread_txHleft : (s.runAdvread).txHleft = s.txHleft := rfl
@[simp] theorem State.runAdvread_enable : (s.runAdvread).enable = s.enable := rfl
@[simp] theorem State.runAdvread_now : (s.runAdvread).now = s.now := rfl
@[simp] theorem State.runAdvread_trace : (s.runAdvread).trace = s.trace := rfl
@[simp] theorem State.runAdvread_answer : (s.runAdvread).answer = s.answer := rfl
@[simp] theorem State.runAdvread_pending : (s.runAdvread).pending = s.pending := rfl
@[simp] theorem State.runAdvread_choices : (s.runAdvread).choices = s.choices := rfl

end

section
variable (s : State) (p : Phase)

@[simp] theorem State.goto_cfg : (s.goto p).cfg = s.cfg := rfl
@[simp] theorem State.goto_cnt : (s.goto p).cnt = s.cnt := rfl
@[simp] theorem State.goto_cmp : (s.goto p).cmp = s.cmp := rfl
@[simp] theorem State.goto_mf : (s.goto p).mf = s.mf := rfl
@[simp] theorem State.goto_pin : (s.goto p).pin = s.pin := rfl
@[simp] theorem State.goto_rxOff : (s.goto p).rxOff = s.rxOff := rfl
@[simp] theorem State.goto_rxOvf : (s.goto p).rxOvf = s.rxOvf := rfl
@[simp] theorem State.goto_wr : (s.goto p).wr = s.wr := rfl
@[simp] theorem State.goto_rd : (s.goto p).rd = s.rd := rfl
@[simp] theorem State.goto_mem : (s.goto p).mem = s.mem := rfl
@[simp] theorem State.goto_fr : (s.goto p).fr = s.fr := rfl
@[simp] theorem State.goto_frChk : (s.goto p).frChk = s.frChk := rfl
@[simp] theorem State.goto_txPhase : (s.goto p).txPhase = p := rfl
@[simp] theorem State.goto_txProg : (s.goto p).txProg = s.txProg := rfl
@[simp] theorem State.goto_txHleft : (s.goto p).txHleft = s.txHleft := rfl
@[simp] theorem State.goto_enable : (s.goto p).enable = s.enable := rfl
@[simp] theorem State.goto_now : (s.goto p).now = s.now := rfl
@[simp] theorem State.goto_trace : (s.goto p).trace = s.trace := rfl
@[simp] theorem State.goto_answer : (s.goto p).answer = s.answer := rfl
@[simp] theorem State.goto_pending : (s.goto p).pending = s.pending := rfl
@[simp] theorem State.goto_choices : (s.goto p).choices = s.choices := rfl

end

section
variable (s : State) (a : Answer)

@[simp] theorem State.respond_cfg : (s.respond a).cfg = s.cfg := rfl
@[simp] theorem State.respond_cnt : (s.respond a).cnt = s.cnt := rfl
@[simp] theorem State.respond_cmp : (s.respond a).cmp = s.cmp := rfl
@[simp] theorem State.respond_mf : (s.respond a).mf = s.mf := rfl
@[simp] theorem State.respond_pin : (s.respond a).pin = s.pin := rfl
@[simp] theorem State.respond_rxOff : (s.respond a).rxOff = s.rxOff := rfl
@[simp] theorem State.respond_rxOvf : (s.respond a).rxOvf = s.rxOvf := rfl
@[simp] theorem State.respond_wr : (s.respond a).wr = s.wr := rfl
@[simp] theorem State.respond_rd : (s.respond a).rd = s.rd := rfl
@[simp] theorem State.respond_mem : (s.respond a).mem = s.mem := rfl
@[simp] theorem State.respond_fr : (s.respond a).fr = s.fr := rfl
@[simp] theorem State.respond_frChk : (s.respond a).frChk = s.frChk := rfl
@[simp] theorem State.respond_txPhase : (s.respond a).txPhase = s.txPhase := rfl
@[simp] theorem State.respond_txProg : (s.respond a).txProg = s.txProg := rfl
@[simp] theorem State.respond_txHleft : (s.respond a).txHleft = s.txHleft := rfl
@[simp] theorem State.respond_enable : (s.respond a).enable = s.enable := rfl
@[simp] theorem State.respond_now : (s.respond a).now = s.now := rfl
@[simp] theorem State.respond_trace : (s.respond a).trace = s.trace := rfl
@[simp] theorem State.respond_answer : (s.respond a).answer = a := rfl
@[simp] theorem State.respond_pending : (s.respond a).pending = s.pending := rfl
@[simp] theorem State.respond_choices : (s.respond a).choices = s.choices := rfl

end

section
variable (s : State) (m : Move)

@[simp] theorem State.present_cfg : (s.present m).cfg = s.cfg := rfl
@[simp] theorem State.present_cnt : (s.present m).cnt = s.cnt := rfl
@[simp] theorem State.present_cmp : (s.present m).cmp = s.cmp := rfl
@[simp] theorem State.present_mf : (s.present m).mf = s.mf := rfl
@[simp] theorem State.present_pin : (s.present m).pin = s.pin := rfl
@[simp] theorem State.present_rxOff : (s.present m).rxOff = s.rxOff := rfl
@[simp] theorem State.present_rxOvf : (s.present m).rxOvf = s.rxOvf := rfl
@[simp] theorem State.present_wr : (s.present m).wr = s.wr := rfl
@[simp] theorem State.present_rd : (s.present m).rd = s.rd := rfl
@[simp] theorem State.present_mem : (s.present m).mem = s.mem := rfl
@[simp] theorem State.present_fr : (s.present m).fr = s.fr := rfl
@[simp] theorem State.present_frChk : (s.present m).frChk = s.frChk := rfl
@[simp] theorem State.present_txPhase : (s.present m).txPhase = s.txPhase := rfl
@[simp] theorem State.present_txProg : (s.present m).txProg = s.txProg := rfl
@[simp] theorem State.present_txHleft : (s.present m).txHleft = s.txHleft := rfl
@[simp] theorem State.present_enable : (s.present m).enable = s.enable := rfl
@[simp] theorem State.present_now : (s.present m).now = s.now := rfl
@[simp] theorem State.present_trace : (s.present m).trace = s.trace := rfl
@[simp] theorem State.present_answer : (s.present m).answer = s.answer := rfl
@[simp] theorem State.present_pending : (s.present m).pending = m :: s.pending := rfl
@[simp] theorem State.present_choices : (s.present m).choices = s.choices := rfl

end

section
variable (s : State)

@[simp] theorem State.unobserved_cfg : (s.unobserved).cfg = s.cfg := rfl
@[simp] theorem State.unobserved_cnt : (s.unobserved).cnt = s.cnt := rfl
@[simp] theorem State.unobserved_cmp : (s.unobserved).cmp = s.cmp := rfl
@[simp] theorem State.unobserved_mf : (s.unobserved).mf = s.mf := rfl
@[simp] theorem State.unobserved_pin : (s.unobserved).pin = s.pin := rfl
@[simp] theorem State.unobserved_rxOff : (s.unobserved).rxOff = s.rxOff := rfl
@[simp] theorem State.unobserved_rxOvf : (s.unobserved).rxOvf = s.rxOvf := rfl
@[simp] theorem State.unobserved_wr : (s.unobserved).wr = s.wr := rfl
@[simp] theorem State.unobserved_rd : (s.unobserved).rd = s.rd := rfl
@[simp] theorem State.unobserved_mem : (s.unobserved).mem = s.mem := rfl
@[simp] theorem State.unobserved_fr : (s.unobserved).fr = s.fr := rfl
@[simp] theorem State.unobserved_frChk : (s.unobserved).frChk = s.frChk := rfl
@[simp] theorem State.unobserved_txPhase : (s.unobserved).txPhase = s.txPhase := rfl
@[simp] theorem State.unobserved_txProg : (s.unobserved).txProg = s.txProg := rfl
@[simp] theorem State.unobserved_txHleft : (s.unobserved).txHleft = s.txHleft := rfl
@[simp] theorem State.unobserved_enable : (s.unobserved).enable = s.enable := rfl
@[simp] theorem State.unobserved_now : (s.unobserved).now = 0 := rfl
@[simp] theorem State.unobserved_trace : (s.unobserved).trace = [] := rfl
@[simp] theorem State.unobserved_answer : (s.unobserved).answer = s.answer := rfl
@[simp] theorem State.unobserved_pending : (s.unobserved).pending = s.pending := rfl
@[simp] theorem State.unobserved_choices : (s.unobserved).choices = s.choices := rfl

end

section
variable (s : State)

@[simp] theorem State.afterReset_cfg : (s.afterReset).cfg = s.cfg := rfl
@[simp] theorem State.afterReset_cnt : (s.afterReset).cnt = s.cfg.cntReset := rfl
@[simp] theorem State.afterReset_cmp : (s.afterReset).cmp = s.cfg.cmpReset := rfl
@[simp] theorem State.afterReset_mf : (s.afterReset).mf = false := rfl
@[simp] theorem State.afterReset_pin : (s.afterReset).pin = s.cfg.pinReset := rfl
@[simp] theorem State.afterReset_rxOff : (s.afterReset).rxOff = 0 := rfl
@[simp] theorem State.afterReset_rxOvf : (s.afterReset).rxOvf = false := rfl
@[simp] theorem State.afterReset_wr : (s.afterReset).wr = 0 := rfl
@[simp] theorem State.afterReset_rd : (s.afterReset).rd = 0 := rfl
@[simp] theorem State.afterReset_mem : (s.afterReset).mem = [] := rfl
@[simp] theorem State.afterReset_fr : (s.afterReset).fr = ⟨0, 0, 0, 0, 0⟩ := rfl
@[simp] theorem State.afterReset_frChk : (s.afterReset).frChk = 0 := rfl
@[simp] theorem State.afterReset_txPhase : (s.afterReset).txPhase = .iter := rfl
@[simp] theorem State.afterReset_txProg : (s.afterReset).txProg = [] := rfl
@[simp] theorem State.afterReset_txHleft : (s.afterReset).txHleft = 0 := rfl
@[simp] theorem State.afterReset_enable : (s.afterReset).enable = s.enable := rfl
@[simp] theorem State.afterReset_now : (s.afterReset).now = 0 := rfl
@[simp] theorem State.afterReset_trace : (s.afterReset).trace = [] := rfl
@[simp] theorem State.afterReset_answer : (s.afterReset).answer = .none := rfl
@[simp] theorem State.afterReset_pending : (s.afterReset).pending = s.pending := rfl
@[simp] theorem State.afterReset_choices : (s.afterReset).choices = s.choices := rfl

end

end Sys2Proof.Machine
end

