-- ==== Sys2Proof/Laws/Ops.lean ====
section
/-! SUPPORT. Laws/Ops.lean: for each shared operation, once, everything it can do; and what one step can do. -/

namespace Sys2Proof.Machine

/-- A cursor's advance names a slot, whatever the cursor was. -/
@[simp] theorem slotExists_incCap (c : Cursor) : slotExists (incCap c) = true := by
  have : (c.toNat + 1) % 42 < 42 := Nat.mod_lt _ (by decide)
  simp only [slotExists, incCap, Config.cap, BitVec.toNat_ofNat, decide_eq_true_eq]
  omega

/-- The advance of a cursor that names a slot, as a number. -/
theorem incCap_toNat (c : Cursor) : (incCap c).toNat = (c.toNat + 1) % 42 := by
  have : (c.toNat + 1) % 42 < 42 := Nat.mod_lt _ (by decide)
  simp only [incCap, Config.cap, BitVec.toNat_ofNat]
  omega

/-- An operation on a slot answers a next state exactly when the slot exists, and then the state it was given. -/
theorem withSlot_next {i : Cursor} {t u : State} : withSlot i t = .next u ↔ slotExists i = true ∧ t = u := by
  unfold withSlot; split <;> simp_all

theorem withSlot_exists {i : Cursor} {t : State} (h : slotExists i = true) : withSlot i t = .next t := by
  simp [withSlot, h]

theorem withSlot_no_fault {i : Cursor} {t : State} {r : Fault} : withSlot i t ≠ .fault r := by
  unfold withSlot; split <;> simp

/-- The counter's half of a tick: the counter counts; on a match, and only then, the flag, the pin and the trace change. -/
theorem countTick_cases (s : State) :
    (s.cnt + 1 = s.cmp ∧ s.countTick =
      { s with cnt := s.cnt + 1
               now := s.now + 1
               mf := true
               pin := !s.pin
               trace := s.trace ++ [.tog (s.now + 1) (!s.pin)] })
    ∨ (s.cnt + 1 ≠ s.cmp ∧ s.countTick = { s with cnt := s.cnt + 1, now := s.now + 1 }) := by
  unfold State.countTick matchAt
  by_cases h : s.cnt + 1 = s.cmp
  · exact .inl ⟨h, if_pos (beq_iff_eq.mpr h)⟩
  · exact .inr ⟨h, if_neg (fun hb => h (beq_iff_eq.mp hb))⟩

/-- The ready query names the read cursor exactly when the cursors differ. -/
theorem tryNext_cases (s : State) : (s.rd ≠ s.wr ∧ s.tryNext = some s.rd) ∨ (s.rd = s.wr ∧ s.tryNext = none) := by
  unfold State.tryNext State.ready
  by_cases h : s.rd = s.wr
  · exact .inr ⟨h, by simp [h]⟩
  · exact .inl ⟨h, by simp [h]⟩

/-- The next move is the first pending one, or a free choice among the agents. -/
theorem nextMove_cases (s : State) :
    (∃ m rest, s.pending = m :: rest ∧ nextMove s = (m, { s with pending := rest }))
    ∨ (s.pending = [] ∧ nextMove s = (moveOfChoice (Config.freeChoice s.choices), { s with choices := s.choices + 1 })) := by
  unfold nextMove
  cases h : s.pending with
  | nil => exact .inr ⟨rfl, rfl⟩
  | cons m rest => exact .inl ⟨m, rest, rfl, rfl⟩

/-- A step that answers a next state ran, in range, the operation that the next move's word selects. -/
theorem step_next {s t : State} (h : step s = .next t) :
    s.inRange = true ∧ ∃ i, decode s.cfg.nPre (wordOfMove (nextMove s).1 s) = .ok i ∧ exec i (nextMove s).2 = .next t := by
  unfold step at h
  split at h
  · refine ⟨by assumption, ?_⟩
    unfold fetch at h
    cases hd : decode s.cfg.nPre (wordOfMove (nextMove s).1 s) with
    | ok i => exact ⟨i, rfl, by simpa [hd] using h⟩
    | error e => simp [hd] at h
  · cases h

/-- Taking the next move changes the pending moves and the count of choices, and nothing else. -/
theorem nextMove_state (s : State) :
    (nextMove s).2 = { s with pending := (nextMove s).2.pending, choices := (nextMove s).2.choices } := by
  unfold nextMove; split <;> rfl

/-- The ranges do not depend on what the environment has lined up. -/
@[simp] theorem inRange_pending (s : State) (p : List Move) (c : Nat) :
    State.inRange { s with pending := p, choices := c } = s.inRange := rfl

@[simp] theorem runOps_nil (s : State) : runOps [] s = .next s := rfl

theorem runOps_cons {i : Instr} {l : List Instr} {s t : State} (h : exec i s = .next t) : runOps (i :: l) s = runOps l t := by
  simp [runOps, h]

/-- A run of two lists of operations is the second run from where the first ends. -/
theorem runOps_append {l₁ l₂ : List Instr} {s t : State} (h : runOps l₁ s = .next t) : runOps (l₁ ++ l₂) s = runOps l₂ t := by
  induction l₁ generalizing s with
  | nil => simp_all
  | cons i l ih =>
    simp only [runOps, List.cons_append] at h ⊢
    cases he : exec i s with
    | next u => simp only [he] at h ⊢; exact ih h
    | fault r => simp [he] at h
    | refused r => simp [he] at h

end Sys2Proof.Machine
end

