-- ==== Sys2Proof/Laws/PerInstr.lean ====
section
/-! SUPPORT. Laws/PerInstr.lean: the family EncodeFits, one lemma per operation: its word has no bit above the width its
format gives it (the width column of spec/opcode_table.json; 30_encoding.md R91). -/

namespace Sys2Proof.Laws

/-- In a build with at least one preamble bit, the operation's word fits the width of its format. -/
def EncodeFits.Statement (i : Instr) : Prop := ∀ nPre, 1 ≤ nPre → (encode nPre i).bits < 2 ^ wordWidth nPre i

/-- The preamble and the start bit fill their `nPre + 1` places but for the last one. -/
theorem framePreamble_lt (n : Nat) : framePreamble n + 2 ≤ 2 ^ (n + 1) := by
  have : 2 ≤ 2 ^ (n + 1) := Nat.le_self_pow (by omega) 2
  simp only [framePreamble]; omega

theorem EncodeFits.wsTick : EncodeFits.Statement .wsTick := by
  intro n _
  simp [encode, wordWidth]

theorem EncodeFits.wsAdv (d : Ticks) : EncodeFits.Statement (.wsAdv d) := by
  intro n _
  have := d.isLt
  simp only [encode, wordWidth]
  omega

theorem EncodeFits.wsWait : EncodeFits.Statement .wsWait := by
  intro n _
  simp [encode, wordWidth]

theorem EncodeFits.beZero : EncodeFits.Statement .beZero := by
  intro n _
  simp [encode, wordWidth]

theorem EncodeFits.beOne : EncodeFits.Statement .beOne := by
  intro n _
  simp [encode, wordWidth]

theorem EncodeFits.bePause : EncodeFits.Statement .bePause := by
  intro n _
  simp [encode, wordWidth]

theorem EncodeFits.symRsvd : EncodeFits.Statement .symRsvd := by
  intro n _
  simp [encode, wordWidth]

theorem EncodeFits.fbFrame1 (a : Byte) (k : Byte) : EncodeFits.Statement (.fbFrame1 a k) := by
  intro n _
  have h := framePreamble_lt n
  have e : 2 ^ (n + 19) = 2 ^ (n + 1) * 2 ^ 18 := by rw [← pow_add]
  have := a.isLt
  have := k.isLt
  simp only [encode, frameWord, wordWidth, List.foldl]
  omega

theorem EncodeFits.fbFrame2 (a : Byte) (b : Byte) (k : Byte) : EncodeFits.Statement (.fbFrame2 a b k) := by
  intro n _
  have h := framePreamble_lt n
  have e : 2 ^ (n + 28) = 2 ^ (n + 1) * 2 ^ 27 := by rw [← pow_add]
  have := a.isLt
  have := b.isLt
  have := k.isLt
  simp only [encode, frameWord, wordWidth, List.foldl]
  omega

theorem EncodeFits.fbFrame3 (a : Byte) (b : Byte) (c : Byte) (k : Byte) : EncodeFits.Statement (.fbFrame3 a b c k) := by
  intro n _
  have h := framePreamble_lt n
  have e : 2 ^ (n + 37) = 2 ^ (n + 1) * 2 ^ 36 := by rw [← pow_add]
  have := a.isLt
  have := b.isLt
  have := c.isLt
  have := k.isLt
  simp only [encode, frameWord, wordWidth, List.foldl]
  omega

theorem EncodeFits.fbFrame4 (a : Byte) (b : Byte) (c : Byte) (d : Byte) (k : Byte) : EncodeFits.Statement (.fbFrame4 a b c d k) := by
  intro n _
  have h := framePreamble_lt n
  have e : 2 ^ (n + 46) = 2 ^ (n + 1) * 2 ^ 45 := by rw [← pow_add]
  have := a.isLt
  have := b.isLt
  have := c.isLt
  have := d.isLt
  have := k.isLt
  simp only [encode, frameWord, wordWidth, List.foldl]
  omega

theorem EncodeFits.ringTrynext (v : Bool) (i : Cursor) : EncodeFits.Statement (.ringTrynext v i) := by
  intro n _
  have := i.isLt
  cases v <;> simp only [encode, wordWidth, Bool.toNat_true, Bool.toNat_false] <;> omega

theorem EncodeFits.ringAdvread : EncodeFits.Statement .ringAdvread := by
  intro n _
  simp [encode, wordWidth]

theorem EncodeFits.ringCommit (u : Usage) (d : Byte) (c : Byte) (b : Byte) (a : Byte) : EncodeFits.Statement (.ringCommit u d c b a) := by
  intro n _
  have := u.isLt
  have := d.isLt
  have := c.isLt
  have := b.isLt
  have := a.isLt
  simp only [encode, wordWidth]
  omega

theorem EncodeFits.rxAddr (a : Byte) : EncodeFits.Statement (.rxAddr a) := by
  intro n _
  have := a.isLt
  simp only [encode, wordWidth]
  omega

theorem EncodeFits.rxData (d : Byte) : EncodeFits.Statement (.rxData d) := by
  intro n _
  have := d.isLt
  simp only [encode, wordWidth]
  omega

theorem EncodeFits.rxStop (x : Byte) : EncodeFits.Statement (.rxStop x) := by
  intro n _
  have := x.isLt
  simp only [encode, wordWidth]
  omega

theorem EncodeFits.rxRsvd (x : Byte) : EncodeFits.Statement (.rxRsvd x) := by
  intro n _
  have := x.isLt
  simp only [encode, wordWidth]
  omega

theorem EncodeFits.txIterHalted (x : BitVec 3) : EncodeFits.Statement (.txIterHalted x) := by
  intro n _
  have := x.isLt
  simp only [encode, wordWidth]
  omega

theorem EncodeFits.txIterReady (x : BitVec 2) : EncodeFits.Statement (.txIterReady x) := by
  intro n _
  have := x.isLt
  simp only [encode, wordWidth]
  omega

theorem EncodeFits.txIterEmpty (x : BitVec 2) : EncodeFits.Statement (.txIterEmpty x) := by
  intro n _
  have := x.isLt
  simp only [encode, wordWidth]
  omega

theorem EncodeFits.txRunAdv (x : BitVec 2) : EncodeFits.Statement (.txRunAdv x) := by
  intro n _
  have := x.isLt
  simp only [encode, wordWidth]
  omega

theorem EncodeFits.txRunAdvread (x : BitVec 2) : EncodeFits.Statement (.txRunAdvread x) := by
  intro n _
  have := x.isLt
  simp only [encode, wordWidth]
  omega

theorem EncodeFits.txRunEnd (x1 : BitVec 2) (x0 : BitVec 1) : EncodeFits.Statement (.txRunEnd x1 x0) := by
  intro n _
  have := x1.isLt
  have := x0.isLt
  simp only [encode, wordWidth]
  omega

theorem EncodeFits.txWait (x : BitVec 4) : EncodeFits.Statement (.txWait x) := by
  intro n _
  have := x.isLt
  simp only [encode, wordWidth]
  omega

theorem EncodeFits.txHalt (x : BitVec 4) : EncodeFits.Statement (.txHalt x) := by
  intro n _
  have := x.isLt
  simp only [encode, wordWidth]
  omega

theorem EncodeFits.envEnable (e : Bool) : EncodeFits.Statement (.envEnable e) := by
  intro n _
  cases e <;> simp [encode, wordWidth]

theorem EncodeFits.envReset : EncodeFits.Statement .envReset := by
  intro n _
  simp [encode, wordWidth]

theorem EncodeFits.uopAdv (d : Ticks) : EncodeFits.Statement (.uopAdv d) := by
  intro n _
  have := d.isLt
  simp only [encode, wordWidth]
  omega

theorem EncodeFits.uopAdvread (x : BitVec 16) : EncodeFits.Statement (.uopAdvread x) := by
  intro n _
  have := x.isLt
  simp only [encode, wordWidth]
  omega

end Sys2Proof.Laws
end

