-- ==== Sys2Proof/Laws/Runs.lean ====
section
/-! SUPPORT. Laws/Runs.lean: the free choices give the counter and the control loop their turns without end, and so every
run meets the two assumptions of 00_scope.md R13. -/

namespace Sys2Proof

namespace Config

/-- From any place in a span the promised turn comes, and it is the turn the span belongs to. -/
theorem turnAt_due {n turn left : Nat} (h : turnAt n = (turn, left)) : turnAt (n + left) = (turn, 0) := by
  induction left generalizing n with
  | zero => exact h
  | succ left ih =>
    have : turnAt (n + 1) = (turn, left) := by simp [turnAt, h]
    rw [← ih this]; congr 1; omega

/-- The turn after a promised turn is the next one. -/
theorem turnAt_next {n turn : Nat} (h : turnAt n = (turn, 0)) : ∃ m, n < m ∧ turnAt m = (turn + 1, 0) := by
  have : turnAt (n + 1) = (turn + 1, anySpan (turn + 1)) := by simp [turnAt, h]
  exact ⟨_, by omega, turnAt_due this⟩

/-- From any place a turn of each parity is still to come. -/
theorem turnAt_parity (n p : Nat) (hp : p < 2) : ∃ m turn, n ≤ m ∧ turnAt m = (turn, 0) ∧ turn % 2 = p := by
  have h₁ := turnAt_due (rfl : turnAt n = ((turnAt n).1, (turnAt n).2))
  obtain ⟨m, hm, h₂⟩ := turnAt_next h₁
  by_cases h : (turnAt n).1 % 2 = p
  · exact ⟨_, _, by omega, h₁, h⟩
  · exact ⟨_, _, by omega, h₂, by omega⟩

theorem freeChoice_due {n turn : Nat} (h : turnAt n = (turn, 0)) : freeChoice n = if turn % 2 = 0 then .tick else .tx := by
  simp [freeChoice, h]

/-- A tick is chosen again, from any place on. -/
theorem freeChoice_tick (n : Nat) : ∃ m, n ≤ m ∧ freeChoice m = .tick := by
  obtain ⟨m, turn, hm, h, hp⟩ := turnAt_parity n 0 (by omega)
  exact ⟨m, hm, by simp [freeChoice_due h, hp]⟩

/-- The control loop is chosen again, from any place on. -/
theorem freeChoice_tx (n : Nat) : ∃ m, n ≤ m ∧ freeChoice m = .tx := by
  obtain ⟨m, turn, hm, h, hp⟩ := turnAt_parity n 1 (by omega)
  exact ⟨m, hm, by simp [freeChoice_due h, hp]⟩

end Config

namespace Machine

/-- A tick leaves what the environment has lined up and the count of free choices as they are. -/
theorem countTick_environment (s : State) : s.countTick.pending = s.pending ∧ s.countTick.choices = s.choices := by
  obtain ⟨-, h⟩ | ⟨-, h⟩ := countTick_cases s <;> rw [h] <;> exact ⟨rfl, rfl⟩

/-- No operation touches what the environment has lined up or the count of free choices. -/
theorem exec_environment {i : Instr} {s t : State} (h : exec i s = .next t) : t.pending = s.pending ∧ t.choices = s.choices := by
  cases i <;>
    simp only [exec, execWsTick, execWsAdv, execWsWait, execBeZero, execBeOne, execBePause, execSymRsvd, execFbFrame1,
      execFbFrame2, execFbFrame3, execFbFrame4, execRingTrynext, execRingAdvread, execRingCommit, execRxAddr, execRxData,
      execRxStop, execRxRsvd, execTxIterHalted, execTxIterReady, execTxIterEmpty, execTxRunAdv, execTxRunAdvread,
      execTxRunEnd, execTxWait, execTxHalt, execEnvEnable, execEnvReset, execUopAdv, execUopAdvread, State.noStep] at h <;>
    (try split at h) <;> (try split at h) <;>
    simp only [withSlot_next, Host.Outcome.next.injEq, reduceCtorEq] at h <;>
    first
      | exact h ▸ countTick_environment s
      | (obtain ⟨-, rfl⟩ := h; exact ⟨rfl, rfl⟩)

/-- What a step does to the environment's part of the state: it takes the first move lined up, or, where none is, one free
choice. -/
theorem step_environment {s t : State} (h : step s = .next t) :
    t.pending = s.pending.tail ∧ (s.pending = [] → t.choices = s.choices + 1) := by
  obtain ⟨-, i, -, he⟩ := step_next h
  obtain ⟨hp, hc⟩ := exec_environment he
  obtain ⟨m, rest, hs, hn⟩ | ⟨hs, hn⟩ := nextMove_cases s <;> simp_all

variable {r : Nat → State}

/-- A run takes the moves lined up one by one. -/
theorem isRun_pending (h : IsRun r) (n : Nat) : (r n).pending = (r 0).pending.drop n := by
  induction n with
  | zero => rfl
  | succ n ih => rw [(step_environment (h n)).1, ih, List.tail_drop]

/-- When nothing is lined up any more, every step takes one free choice. -/
theorem isRun_choices (h : IsRun r) {n : Nat} (hn : (r 0).pending.length ≤ n) (k : Nat) :
    (r (n + k)).choices = (r n).choices + k := by
  induction k with
  | zero => rfl
  | succ k ih =>
    have hp : (r (n + k)).pending = [] := by rw [isRun_pending h]; exact List.drop_eq_nil_of_le (by omega)
    rw [← Nat.add_assoc, (step_environment (h (n + k))).2 hp, ih, Nat.add_assoc]

/-- What is chosen again from any place on is moved again from any step of a run on. -/
theorem isRun_moves (h : IsRun r) {c : Config.Choice} (hc : ∀ n, ∃ m, n ≤ m ∧ Config.freeChoice m = c) (n : Nat) :
    ∃ m, n ≤ m ∧ (nextMove (r m)).1 = moveOfChoice c := by
  obtain ⟨start, hn, hl⟩ : ∃ start, n ≤ start ∧ (r 0).pending.length ≤ start :=
    ⟨_, Nat.le_max_left _ _, Nat.le_max_right _ _⟩
  obtain ⟨m, hm, hmc⟩ := hc (r start).choices
  obtain ⟨k, rfl⟩ := Nat.exists_eq_add_of_le hm
  have hp : (r (start + k)).pending = [] := by
    rw [isRun_pending h]; exact List.drop_eq_nil_of_le (by omega)
  exact ⟨start + k, by omega, by simp [nextMove, hp, isRun_choices h hl, hmc]⟩

/-- 00_scope.md R13: every run of the machine meets the two assumptions made of every run. -/
theorem isRun_fair (h : IsRun r) : FairRun r := by
  refine ⟨h, fun n => ?_, fun n hen => ?_⟩
  · obtain ⟨m, hm, hmv⟩ := isRun_moves h Config.freeChoice_tick n
    exact ⟨m, hm, by simp [State.takesTick, State.nextWord, hmv, moveOfChoice, wordOfMove]⟩
  · obtain ⟨m, hm, hmv⟩ := isRun_moves h Config.freeChoice_tx n
    exact ⟨m, hm, hen m hm, by simp [State.nextWord, hmv, moveOfChoice, wordOfMove]⟩

end Machine

end Sys2Proof
end

