-- ==== Sys2Proof/Laws/Stimulus.lean ====
section
/-! SUPPORT. Laws/Stimulus.lean: the script driver's account of the eager schedule per time is the schedule of 00_scope.md
R15. -/

namespace Sys2Proof.Machine

/-- The move `TICK` of a script. -/
abbrev tickMove : Move := .word (encode 13 .wsTick)

@[simp] theorem settleIf_true (s : State) : settleIf true s = settle s := rfl
@[simp] theorem settleIf_false (s : State) : settleIf false s = some s := rfl

/-- Two lists of moves one after the other. -/
theorem runMoves_append (b : Bench) (l₁ l₂ : List Move) (s : State) :
    runMoves b (l₁ ++ l₂) s = (runMoves b l₁ s).bind (runMoves b l₂) := by
  induction l₁ generalizing s with
  | nil => rfl
  | cons m l ih => simp only [List.cons_append, runMoves, ih, Option.bind_assoc]

/-- Per time, moves without a tick among them are taken with no step of the control loop in between. -/
theorem runMoves_placed {b : Bench} (hb : b.account = .perTime) {ms : List Move} (hm : tickMove ∉ ms) (s : State) :
    runMoves b ms s = takeMoves ms s := by
  induction ms generalizing s with
  | nil => rfl
  | cons m l ih =>
    have h : (m == tickMove) = false := beq_eq_false_iff_ne.mpr fun h => hm (h ▸ List.mem_cons_self)
    have hl : tickMove ∉ l := fun h => hm (List.mem_cons_of_mem _ h)
    have hs : (b.account == Eager.perLine) = false := by rw [hb]; rfl
    simp only [runMoves, takeMoves, h, hs, Bool.and_false, settleIf_false, Option.bind_some, ih hl]

/-- Per time, a tick comes after all enabled steps of the control loop. -/
theorem runMoves_tick {b : Bench} (hb : b.account = .perTime) (he : b.eager = true) (l : List Move) (s : State) :
    runMoves b (tickMove :: l) s = ((settle s).bind (stepMove tickMove)).bind (runMoves b l) := by
  have h : (tickMove == tickMove) = true := beq_self_eq_true _
  have hs : (Eager.perTime == Eager.perLine) = false := rfl
  have ht : (Eager.perTime == Eager.perTime) = true := rfl
  simp only [runMoves, hb, he, h, hs, ht, Bool.and_true, Bool.and_false, settleIf_true, settleIf_false, Option.bind_some,
    Option.bind_assoc]

/-- The driver in the account per time runs the eager schedule of R15: the moves placed at each value of `now`, a tick
between two values, and the control loop's steps at the last. -/
theorem runMoves_eagerRun {b : Bench} (hb : b.account = .perTime) (he : b.eager = true) (ms : List Move)
    (rest : List (List Move)) (hm : ∀ l ∈ ms :: rest, tickMove ∉ l) (s : State) :
    (runMoves b (ms ++ rest.flatMap (tickMove :: ·)) s).bind settle = eagerRun (ms :: rest) s := by
  induction rest generalizing ms s with
  | nil =>
    rw [List.flatMap_nil, List.append_nil, runMoves_placed hb (hm ms List.mem_cons_self)]; rfl
  | cons ns rest ih =>
    rw [runMoves_append, runMoves_placed hb (hm ms List.mem_cons_self), List.flatMap_cons, List.cons_append]
    simp only [eagerRun, eagerTime, Option.bind_assoc, runMoves_tick hb he]
    refine congrArg _ (funext fun t => congrArg _ (funext fun u => congrArg _ (funext fun v => ?_)))
    exact ih ns (fun l hl => hm l (List.mem_cons_of_mem _ hl)) v

end Sys2Proof.Machine
end

