-- ==== Sys2Proof/WellFormed.lean ====
section
/-! DEFINITION. WellFormed.lean: which operation words the hardware itself ever puts on its interfaces.

Every other operand takes every value its field has. A word that is not well formed still decodes, and but for the
reserved symbol it still runs: the hardware validates nothing (42_frame_encoder.md R160). -/

namespace Sys2Proof

/-- R151: a checksum byte is the XOR of the data bytes before it. -/
def xorOfBytes (ds : List Byte) : Byte := ds.foldl (· ^^^ ·) 0

/-- R94 and R103 (e): a valid answer names a slot that exists, and an answer "none" is written with index 0. -/
def qresWellFormed (v : Bool) (i : Cursor) : Bool := if v then decide (i.toNat < Config.cap) else decide (i = 0)

/-- The operation words the spec's encodings produce: the reserved symbol is never produced (R103 (b)), an answer word
is as R94 writes it, and a frame carries the checksum of its own bytes (R151). -/
def Instr.wellFormed : Instr → Bool
  | .symRsvd => false
  | .ringTrynext v i => qresWellFormed v i
  | .fbFrame1 a k => k = xorOfBytes [a]
  | .fbFrame2 a b k => k = xorOfBytes [a, b]
  | .fbFrame3 a b c k => k = xorOfBytes [a, b, c]
  | .fbFrame4 a b c d k => k = xorOfBytes [a, b, c, d]
  | .wsTick | .wsAdv _ | .wsWait | .beZero | .beOne | .bePause => true
  | .ringAdvread | .ringCommit _ _ _ _ _ => true
  | .rxAddr _ | .rxData _ | .rxStop _ | .rxRsvd _ => true
  | .txIterHalted _ | .txIterReady _ | .txIterEmpty _ => true
  | .txRunAdv _ | .txRunAdvread _ | .txRunEnd _ _ | .txWait _ | .txHalt _ => true
  | .envEnable _ | .envReset | .uopAdv _ | .uopAdvread _ => true

end Sys2Proof
end

