-- ==== Sys2Proof/Tests/Slice0.lean ====
section
/-! SUPPORT. Tests/Slice0.lean: words written out from the spec's encodings, ill-formed words, single steps checked against
the vectors of 95_test_vectors.md (their ids in the comments), and a witness for the hypotheses of every statement. -/

namespace Sys2Proof.Tests

open Sys2Proof Sys2Proof.Machine

/-! ### Decoding: one word per operation, written from the patterns of 30_encoding.md R92 to R100 -/

-- R99 STROBE `1`, FLAG `1`, LEVEL `e`
theorem test_decode_ws_tick : decode 13 ⟨.tick, 0b1⟩ = .ok .wsTick := by rfl
theorem test_decode_ws_wait : decode 13 ⟨.flag, 0b1⟩ = .ok .wsWait := by rfl
theorem test_decode_ring_advread : decode 13 ⟨.ringAdvread, 0b1⟩ = .ok .ringAdvread := by rfl
theorem test_decode_env_reset : decode 13 ⟨.rst, 0b1⟩ = .ok .envReset := by rfl
theorem test_decode_env_enable : decode 13 ⟨.enable, 0b0⟩ = .ok (.envEnable false) := by rfl
-- R96 DUR (vector WS8)
theorem test_decode_ws_adv : decode 13 ⟨.dur, 0b0000000000111010⟩ = .ok (.wsAdv 58) := by rfl
-- R95 SYM (vectors BE1 to BE3, BE5)
theorem test_decode_be_one : decode 13 ⟨.sym, 0b01⟩ = .ok .beOne := by rfl
theorem test_decode_be_zero : decode 13 ⟨.sym, 0b00⟩ = .ok .beZero := by rfl
theorem test_decode_be_pause : decode 13 ⟨.sym, 0b10⟩ = .ok .bePause := by rfl
theorem test_decode_sym_rsvd : decode 13 ⟨.sym, 0b11⟩ = .ok .symRsvd := by rfl
-- R100 FRAME (vectors FB1, FB2, FB3, FB7)
theorem test_decode_fb_frame1 :
    decode 13 ⟨.frame, 0b11111111111110000000110000000111⟩ = .ok (.fbFrame1 0x03 0x03) := by rfl
theorem test_decode_fb_frame2 :
    decode 13 ⟨.frame, 0b11111111111110111111110000000000111111111⟩ = .ok (.fbFrame2 0xFF 0x00 0xFF) := by rfl
theorem test_decode_fb_frame3 :
    decode 13 ⟨.frame, 0b11111111111110000000110001111110100010000101101001⟩
      = .ok (.fbFrame3 0x03 0x3F 0x88 0xB4) := by rfl
theorem test_decode_fb_frame4 :
    decode 13 ⟨.frame, 0b11111111111110000100100001101000010101100011110000000010001⟩
      = .ok (.fbFrame4 0x12 0x34 0x56 0x78 0x08) := by rfl
-- R94 QRES (vector RG3), R93 COMMITW (vector RG8)
theorem test_decode_ring_trynext : decode 13 ⟨.qres, 0b1101001⟩ = .ok (.ringTrynext true 41) := by rfl
theorem test_decode_ring_commit :
    decode 13 ⟨.commitw, 0b1101111000010101100011010000010010⟩ = .ok (.ringCommit 3 0x78 0x56 0x34 0x12) := by rfl
-- R92 BUSEVT (vectors RX1, RX2, RX7, RX9)
theorem test_decode_rx_addr : decode 13 ⟨.busEvt, 0b0001000000⟩ = .ok (.rxAddr 0x40) := by rfl
theorem test_decode_rx_data : decode 13 ⟨.busEvt, 0b0100010001⟩ = .ok (.rxData 0x11) := by rfl
theorem test_decode_rx_stop : decode 13 ⟨.busEvt, 0b1000000000⟩ = .ok (.rxStop 0) := by rfl
theorem test_decode_rx_rsvd : decode 13 ⟨.busEvt, 0b1100000000⟩ = .ok (.rxRsvd 0) := by rfl
-- R98 TXSEL (vectors TX1 to TX3 and the patterns)
theorem test_decode_tx_iter_halted : decode 13 ⟨.txsel, 0b000100⟩ = .ok (.txIterHalted 0b100) := by rfl
theorem test_decode_tx_iter_ready : decode 13 ⟨.txsel, 0b001100⟩ = .ok (.txIterReady 0) := by rfl
theorem test_decode_tx_iter_empty : decode 13 ⟨.txsel, 0b001000⟩ = .ok (.txIterEmpty 0) := by rfl
theorem test_decode_tx_run_adv : decode 13 ⟨.txsel, 0b011010⟩ = .ok (.txRunAdv 0b10) := by rfl
theorem test_decode_tx_run_advread : decode 13 ⟨.txsel, 0b010111⟩ = .ok (.txRunAdvread 0b01) := by rfl
theorem test_decode_tx_run_end : decode 13 ⟨.txsel, 0b011100⟩ = .ok (.txRunEnd 0b11 0) := by rfl
theorem test_decode_tx_wait : decode 13 ⟨.txsel, 0b101010⟩ = .ok (.txWait 0b1010) := by rfl
theorem test_decode_tx_halt : decode 13 ⟨.txsel, 0b110001⟩ = .ok (.txHalt 0b0001) := by rfl
-- R97 UOP: ADV(500) = 0x001F4, ADVREAD = 0x10000
theorem test_decode_uop_adv : decode 13 ⟨.uop, 0b00000000111110100⟩ = .ok (.uopAdv 500) := by rfl
theorem test_decode_uop_advread : decode 13 ⟨.uop, 0b10000000000000000⟩ = .ok (.uopAdvread 0) := by rfl

-- words that select nothing are rejected by name: a strobe of 0 (R99), an eleventh bit (R92), a separator 1 (R100)
theorem test_decode_no_strobe : decode 13 ⟨.tick, 0⟩ = .error (.noEvent .tick) := by rfl
theorem test_decode_wide_event : decode 13 ⟨.busEvt, 0x400⟩ = .error (.tooWide .busEvt) := by rfl
theorem test_decode_bad_separator :
    decode 13 ⟨.frame, 0b11111111111110000000111000000111⟩ = .error .notAFrame := by rfl

/-! ### Well-formedness: one ill-formed word per check (R103 (b), R94, R103 (e), R151) -/

theorem test_illformed_reserved_symbol : Instr.wellFormed .symRsvd = false := by decide
theorem test_illformed_index : Instr.wellFormed (.ringTrynext true 42) = false := by decide
theorem test_illformed_none_index : Instr.wellFormed (.ringTrynext false 1) = false := by decide
theorem test_illformed_checksum1 : Instr.wellFormed (.fbFrame1 0x03 0x04) = false := by decide
theorem test_illformed_checksum2 : Instr.wellFormed (.fbFrame2 0xFF 0x00 0x00) = false := by decide
theorem test_illformed_checksum3 : Instr.wellFormed (.fbFrame3 0x03 0x3F 0x88 0xB5) = false := by decide
theorem test_illformed_checksum4 : Instr.wellFormed (.fbFrame4 0x12 0x34 0x56 0x78 0x09) = false := by decide
theorem test_wellformed_frame : Instr.wellFormed (.fbFrame4 0x12 0x34 0x56 0x78 0x08) = true := by decide
theorem test_wellformed_answer : Instr.wellFormed (.ringTrynext true 41) = true := by decide

/-! ### Single steps, against 95_test_vectors.md -/

/-- The next state of an operation, if it answers one. -/
def after (i : Instr) (s : State) : Option State :=
  match exec i s with
  | .next t => some t
  | .fault _ => none
  | .refused _ => none

/-- The reset state with the cursors, the receiver's offset and the memory given. -/
def ring (wr rd : Cursor) (off : Offset) (m : Memory) : State := { State.reset with wr := wr, rd := rd, rxOff := off, mem := m }

/-- The reset state with the sequencer given. -/
def seq (p : Phase) (prog : List UOp) : State := { State.reset with txPhase := p, txProg := prog }

-- WS1 (a match) and WS3 (a match on the wrap)
theorem test_tick_match :
    (after .wsTick { State.reset with cnt := 0x0039, cmp := 0x003A }).map (fun t => (t.cnt, t.mf, t.pin, t.trace))
      = some (0x003A, true, true, [.tog 1 true]) := by decide
theorem test_tick_wrap :
    (after .wsTick { State.reset with cnt := 0xFFFF, cmp := 0x1234, txHleft := 1 }).map (fun t => (t.cnt, t.mf, t.txHleft))
      = some (0x0000, false, 0) := by decide
-- WS6, WS8
theorem test_adv_wraps : (after (.wsAdv 58) { State.reset with cmp := 0xFFF0 }).map (·.cmp) = some 0x002A := by decide
theorem test_adv_65535 : (after (.wsAdv 65535) { State.reset with cmp := 0x0100 }).map (·.cmp) = some 0x00FF := by decide
-- WS10, WS11
theorem test_wait_consumes : (after .wsWait { State.reset with mf := true }).map (·.mf) = some false := by decide
-- BE1, BE2, BE3, and BE4 (the pair exchanged)
theorem test_be_one : (after .beOne State.reset).map (·.answer) = some (.symbol [.adv 58, .adv 58]) := by decide
theorem test_be_zero : (after .beZero State.reset).map (·.answer) = some (.symbol [.adv 100, .adv 100]) := by decide
theorem test_be_pause : (after .bePause State.reset).map (·.answer) = some (.symbol [.adv 500]) := by decide
theorem test_be_one_exchanged :
    (after .beOne { State.reset with cfg := { Config.Params.default with tOne := 100, tZero := 58 } }).map (·.answer)
      = some (.symbol [.adv 100, .adv 100]) := by decide
theorem test_sym_rsvd_stops : (after .symRsvd State.reset).isNone = true := by decide
-- FB1, FB2, FB3, FB7: the bits of the frame
theorem test_frame1_bits : frameBits 13 [0x03] 0x03 =
    [true, true, true, true, true, true, true, true, true, true, true, true, true, false,
     false, false, false, false, false, false, true, true, false, false, false, false, false, false, false, true, true,
     true] := by decide
theorem test_frame2_ticks : progTicks (frameProg Config.Params.default [0xFF, 0x00] 0xFF) = 5680 := by decide
theorem test_frame3_checksum : checksum ⟨0x03, 0x3F, 0x88, 0, 2⟩ = 0xB4 := by decide
theorem test_frame4_ticks : progTicks (frameProg Config.Params.default [0x12, 0x34, 0x56, 0x78] 0x08) = 9448 := by decide
-- SP1: bytes beyond the usage count do not enter
theorem test_checksum_ignores_rest : checksum ⟨0xAA, 0x55, 0xFF, 0xFF, 1⟩ = 0xFF := by decide
-- RG3, RG1
theorem test_trynext_wrapped :
    (after (.ringTrynext false 0) (ring 0 41 0 [])).map (·.answer) = some (.qres 0b1101001) := by decide
theorem test_trynext_none : (after (.ringTrynext false 0) State.reset).map (·.answer) = some (.qres 0) := by decide
-- RG9: slot 41 is cleared and rd wraps to 0
theorem test_advread_wraps :
    (after .ringAdvread (ring 0 41 0 [(205, 0x12), (206, 0x34), (207, 0x56), (208, 0x78), (209, 3)])).map
      (fun t => (t.rd, t.mem)) = some (0, []) := by decide
-- RG8: slot 41 gets its usage count and wr wraps to 0
theorem test_commit_wraps :
    (after (.ringCommit 3 0x78 0x56 0x34 0x12) (ring 41 0 0 [(205, 0x12)])).map (fun t => (t.wr, t.mem))
      = some (0, [(205, 0x12), (209, 3)]) := by decide
-- RX1, RX5, RX6, RX7, RX13, RX9
theorem test_rx_addr : (after (.rxAddr 0x40) State.reset).map (fun t => (t.rxOff, t.trace)) = some (0, [.rel]) := by decide
theorem test_rx_data_fourth :
    (after (.rxData 0x44) (ring 0 0 3 [])).map (fun t => (readSlot t.mem 0, t.rxOff, t.rxOvf))
      = some (⟨0, 0, 0, 0x44, 0⟩, 4, false) := by decide
theorem test_rx_data_fifth :
    (after (.rxData 0x55) (ring 0 0 4 [(3, 0x44)])).map (fun t => (t.mem, t.rxOff, t.rxOvf, t.trace))
      = some ([(3, 0x44)], 4, true, [.rel]) := by decide
theorem test_rx_stop_discards :
    (after (.rxStop 0) { ring 0 0 4 [(3, 0x44)] with rxOvf := true }).map (fun t => (t.wr, t.rxOff, t.rxOvf))
      = some (0, 0, false) := by decide
theorem test_rx_stop_commits :
    (after (.rxStop 0) (ring 41 0 2 [(205, 0xFF)])).map (fun t => (t.wr, t.rxOff, (readSlot t.mem 41).uc, t.trace))
      = some (0, 0, 1, []) := by decide
theorem test_rx_rsvd : (after (.rxRsvd 0) State.reset).map (·.trace) = some [] := by decide
-- TX1, TX2, TX3
theorem test_iter_halted :
    (after (.txIterHalted 0) (ring 1 0 0 [])).map (fun t => (t.txPhase, t.txHleft, t.trace)) = some (.halt, 1, [.kick]) := by
  decide
theorem test_iter_ready :
    (after (.txIterReady 0) { ring 1 0 0 [(0, 0x03)] with enable := true }).map
      (fun t => (t.fr, t.frChk, t.txProg.length, t.txPhase, t.rd)) = some (⟨3, 0, 0, 0, 0⟩, 3, 66, .run, 0) := by decide
theorem test_iter_empty :
    (after (.txIterEmpty 0) { State.reset with enable := true }).map (fun t => (t.txProg, t.txPhase, t.trace))
      = some ([.adv 500], .run, [.kick]) := by decide
-- TX4, TX5, TX6
theorem test_run_adv :
    (after (.txRunAdv 0) { seq .run [.adv 58, .adv 58] with cmp := 0x01F4 }).map (fun t => (t.cmp, t.txProg, t.txPhase))
      = some (0x022E, [.adv 58], .wait) := by decide
theorem test_run_advread :
    (after (.txRunAdvread 0) { seq .run [.advread, .adv 500] with mem := [(0, 0x03)] }).map
      (fun t => (t.mem, t.rd, t.txProg, t.txPhase)) = some ([], 1, [.adv 500], .run) := by decide
theorem test_run_end : (after (.txRunEnd 0 0) (seq .run [])).map (·.txPhase) = some .iter := by decide
-- TX7, TX9, TX11
theorem test_tx_wait :
    (after (.txWait 0) { seq .wait [] with mf := true }).map (fun t => (t.mf, t.txPhase)) = some (false, .run) := by decide
theorem test_tx_halt : (after (.txHalt 0) (seq .halt [])).map (·.txPhase) = some .iter := by decide
theorem test_env_enable : (after (.envEnable true) (seq .wait [])).map (fun t => (t.enable, t.txPhase)) = some (true, .wait) := by
  decide
-- RS1
theorem test_env_reset :
    (after .envReset { ring 5 3 2 [(7, 9)] with txPhase := .wait, mf := true, now := 9, enable := true }).map
      (fun t => (t.wr, t.mem, t.txPhase, t.mf, t.enable)) = some (0, [], .iter, false, true) := by decide
-- R214: the micro-operations at the head of the program
theorem test_uop_adv :
    (after (.uopAdv 100) (seq .run [.adv 100])).map (fun t => (t.cmp, t.txProg, t.txPhase)) = some (100, [], .wait) := by decide
theorem test_uop_advread :
    (after (.uopAdvread 0) (seq .run [.advread])).map (fun t => (t.rd, t.txProg, t.txPhase)) = some (1, [], .run) := by decide

/-! ### The fetch -/

/-- The next state of a step, if it answers one. -/
def stepped (s : State) : Option State :=
  match step s with
  | .next t => some t
  | .fault _ => none
  | .refused _ => none

-- FB1 as the table's row FB_FRAME1
theorem test_table_frame1 :
    decodeTableWord 32 0b11111111111110000000110000000111 = some (.fbFrame1 0x03 0x03) := by rfl
theorem test_fetch_frame1 :
    (stepped (State.reset.withFetchWord 32 0b11111111111110000000110000000111)).map (·.answer)
      = some (.frame (frameBits 13 [0x03] 0x03) (frameProg Config.Params.default [0x03] 0x03)) := by decide
theorem test_fetch_data : (stepped (State.reset.withFetchWord 16 0x111)).map (·.rxOff) = some 1 := by decide
theorem test_fetch_ready : (stepped (State.reset.withFetchWord 8 0b001100)).map (·.txPhase) = some .run := by decide
theorem test_fetch_uop : (stepped (State.reset.withFetchWord 24 0x001F4)).map (·.cmp) = some 500 := by decide

/-! ### Witnesses: the hypotheses of the statements can be met -/

theorem wit_decode_of_encode : 1 ≤ 13 ∧ decode 1 (encode 1 (.fbFrame1 0 0)) = .ok (.fbFrame1 0 0) := by
  exact ⟨by decide, by rfl⟩
theorem wit_encode_of_decode : decode 13 ⟨.busEvt, 0x3FF⟩ = .ok (.rxRsvd 0xFF) := by rfl
theorem wit_txsel_pattern : txselPattern (.txRunEnd 0 0) = some (0b110010, 0b010000)
    ∧ (0b011101 : BitVec 6) &&& 0b110010 = 0b010000 := by decide
theorem wit_frame_positions : (12 < 13) ∧ ([0x03, 0xA5] : List Byte)[1]? = some 0xA5 ∧ 7 < 8
    ∧ 1 < ([0x03, 0xA5] : List Byte).length := by decide
theorem wit_frame_word : 31 < 13 + 10 + 9 * ([0x03] : List Byte).length := by decide
theorem wit_checksum : ([1, 2, 3] : List Byte).Perm [2, 3, 1]
    ∧ (⟨1, 2, 3, 4, 1⟩ : Slot).uc = (⟨1, 2, 5, 6, 1⟩ : Slot).uc
    ∧ validBytes ⟨1, 2, 3, 4, 1⟩ = validBytes ⟨1, 2, 5, 6, 1⟩ := by decide
theorem wit_stage_registers (p : Slot) : (packetProg Config.Params.default p).length ≤ (packetProg Config.Params.default p).length
    ∧ (packetProg Config.Params.default p).length - (packetProg Config.Params.default p).length ≤ 0 := ⟨le_refl _, by omega⟩
theorem wit_step_pending : (State.reset.present .tx).inRange = true ∧ (State.reset.present .tx).pending = .tx :: []
    ∧ decode 13 (wordOfMove .tx (State.reset.present .tx)) = .ok (.txIterHalted 0) := by
  exact ⟨by decide, by rfl, by rfl⟩
theorem wit_step_nothing_pending : State.reset.inRange = true ∧ State.reset.pending = []
    ∧ ∃ i, decode State.reset.cfg.nPre (wordOfMove (moveOfChoice (Config.freeChoice State.reset.choices)) State.reset) = .ok i := by
  refine ⟨by decide, rfl, ?_⟩
  cases Config.freeChoice State.reset.choices with
  | tick => exact ⟨_, rfl⟩
  | tx => exact ⟨.txIterHalted 0, rfl⟩
  | reset => exact ⟨_, rfl⟩
  | enable v => cases v <;> exact ⟨_, rfl⟩
  | bus w =>
    have h := w.isLt
    show ∃ i, decodeBusEvt w.toNat = .ok i
    unfold decodeBusEvt
    split
    · exact ⟨_, rfl⟩
    · split
      · exact ⟨_, rfl⟩
      · split
        · exact ⟨_, rfl⟩
        · exact ⟨_, rfl⟩
theorem wit_selected_step : State.reset.inRange = true ∧ selectedByTxsel (.txIterHalted 0) State.reset = true := by decide
theorem wit_out_of_range : State.inRange { State.reset with wr := 42 } = false := by decide
theorem wit_table_word : State.reset.inRange = true ∧ 1 ≤ State.reset.cfg.nPre
    ∧ decodeTableWord 8 0b010010 = some (.txRunAdv 0) ∧ agentOf (.txRunAdv 0) = .tx := by
  exact ⟨by decide, by decide, by rfl, by rfl⟩
theorem wit_total : State.reset.inRange = true ∧ Instr.wsTick ≠ .symRsvd := by decide
theorem wit_agents_move : State.reset.inRange = true ∧ State.reset.pending = [] := by decide

/-- A state that meets the invariant, with one packet unread and a packet in progress. -/
def busy : State := { ring 1 0 2 [(0, 0x03), (5, 0xFF)] with enable := true }

theorem busy_inv : busy.Inv := ⟨by decide, by decide, by decide⟩
theorem wit_step_keeps : (busy.present .tx).Inv ∧ (stepped (busy.present .tx)).isSome = true :=
  ⟨⟨by decide, by decide, by decide⟩, by decide⟩
theorem wit_tick_match : State.cnt { State.reset with cnt := 0xFFFF } + 1 = State.cmp State.reset := by decide
theorem wit_tick_no_match : State.reset.cnt + 1 ≠ State.reset.cmp := by decide
theorem wit_wait : State.mf { State.reset with mf := true } = true ∧ State.reset.mf = false := by decide
theorem wit_next_toggle : busy.inRange = true ∧ ticksAndEvents [.wsTick, .rxData 1, .wsTick]
    ∧ tickCount [.wsTick, .rxData 1, .wsTick] < State.ticksToMatch busy + 65536
    ∧ State.ticksToMatch { busy with cmp := 2 } = tickCount [.wsTick, .rxData 1, .wsTick] := by
  refine ⟨by decide, ?_, by decide, by decide⟩
  unfold ticksAndEvents; decide
theorem wit_exact : busy.inRange = true ∧ busy.cnt = busy.cmp ∧ ticksAndEvents [.wsTick] ∧ ticksAndEvents [.rxAddr 1, .wsTick]
    ∧ tickCount [.wsTick] < (2 : Ticks).toNat ∧ (2 : Ticks).toNat ≤ tickCount [.wsTick] + tickCount [.rxAddr 1, .wsTick]
    ∧ tickCount [.wsTick] + tickCount [.rxAddr 1, .wsTick] < (2 : Ticks).toNat + 65536 := by
  refine ⟨by decide, by decide, ?_, ?_, by decide, by decide, by decide⟩ <;> unfold ticksAndEvents <;> decide
theorem wit_late : busy.inRange = true ∧ busy.cnt = busy.cmp ∧ ticksAndEvents [.wsTick] ∧ ticksAndEvents [.rxStop 0]
    ∧ (1 : Ticks).toNat ≤ tickCount [.wsTick] ∧ tickCount [.wsTick] < 65536
    ∧ tickCount [.wsTick] + tickCount [.rxStop 0] < (1 : Ticks).toNat + 131072 := by
  refine ⟨by decide, by decide, ?_, ?_, by decide, by decide, by decide⟩ <;> unfold ticksAndEvents <;> decide

/-- A list of n ticks has n ticks, whatever n is. -/
theorem tickCount_replicate (n : Nat) : tickCount (List.replicate n .wsTick) = n := by
  simp [tickCount, List.countP_replicate]

/-- Ticks only are ticks and events. -/
theorem ticksAndEvents_replicate (n : Nat) : ticksAndEvents (List.replicate n .wsTick) :=
  fun _ hi => .inl (by rw [List.eq_of_mem_replicate hi]; rfl)

-- the late toggle itself: d = 0 at latency 0, and 65536 ticks after it
theorem wit_late_boundary : busy.inRange = true ∧ busy.cnt = busy.cmp ∧ ticksAndEvents []
    ∧ ticksAndEvents (List.replicate 65536 .wsTick) ∧ (0 : Ticks).toNat ≤ tickCount [] ∧ tickCount [] < 65536
    ∧ (0 : Ticks).toNat + 65536 ≤ tickCount [] + tickCount (List.replicate 65536 .wsTick)
    ∧ tickCount [] + tickCount (List.replicate 65536 .wsTick) < (0 : Ticks).toNat + 131072 := by
  rw [tickCount_replicate]
  exact ⟨by decide, by decide, by simp [ticksAndEvents], ticksAndEvents_replicate _, by decide, by decide, by decide, by decide⟩
theorem wit_target_sum : Instr.envReset ∉ ([.wsAdv 58, .wsTick] : List Instr)
    ∧ (match runOps [.wsAdv 58, .wsTick] State.reset with | .next t => t.cmp | _ => 0) = 58 := by decide
theorem wit_stale : State.txPhase { seq .run [.adv 500] with mf := true } = .run
    ∧ State.txProg { seq .run [.adv 500] with mf := true } = .adv 500 :: []
    ∧ State.mf { seq .run [.adv 500] with mf := true } = true := by decide
theorem wit_trynext : busy.rd ≠ busy.wr ∧ State.reset.rd = State.reset.wr := by decide
theorem wit_advread : Memory.wf (ring 0 41 0 [(205, 1)]).mem = true ∧ (ring 0 41 0 [(205, 1)]).rd.toNat < 42 := by decide
theorem wit_commit : Memory.wf (ring 41 0 1 [(205, 1)]).mem = true ∧ (ring 41 0 1 [(205, 1)]).wr.toNat < 42 := by decide
theorem wit_cursors : Instr.rxStop 0 ≠ .envReset ∧ (after (.rxStop 0) busy).map (·.wr) = some 2
    ∧ (after .ringAdvread busy).map (·.rd) = some 1 := by decide
theorem wit_queue : busy.Inv ∧ (after (.rxStop 0) busy).map (·.wr) ≠ some busy.wr ∧ busy.avail < 41
    ∧ (after .ringAdvread busy).map (·.rd) ≠ some busy.rd ∧ busy.unread ≠ []
    ∧ (after (.rxData 7) busy).map (fun t => (t.wr, t.rd)) = some (busy.wr, busy.rd)
    ∧ selectedByTxsel (.txIterReady 0) busy = true := ⟨busy_inv, by decide, by decide, by decide, by decide, by decide, by decide⟩
theorem wit_forty_second : (ring 41 0 1 [(205, 1)]).Inv ∧ (ring 41 0 1 [(205, 1)]).avail = 41
    ∧ (ring 41 0 1 [(205, 1)]).rxOvf = false ∧ 1 ≤ (ring 41 0 1 [(205, 1)]).rxOff.toNat :=
  ⟨⟨by decide, by decide, by decide⟩, by decide, by decide, by decide⟩
theorem wit_data_stored : (ring 41 0 3 []).rxOff.toNat < 4 ∧ Memory.wf (ring 41 0 3 []).mem = true
    ∧ (ring 41 0 3 []).wr.toNat < 42 := by decide
theorem wit_data_dropped : 4 ≤ (ring 0 0 4 []).rxOff.toNat := by decide
theorem wit_stop_discard : State.rxOvf { ring 0 0 4 [] with rxOvf := true } = true := by decide
theorem wit_stop_ignore : State.reset.rxOvf = false ∧ State.reset.rxOff = 0 := by decide
theorem wit_stop_commit : (ring 41 0 4 []).rxOvf = false ∧ 1 ≤ (ring 41 0 1 []).rxOff.toNat
    ∧ (ring 41 0 4 []).rxOff.toNat ≤ 4 ∧ Memory.wf (ring 41 0 4 []).mem = true ∧ (ring 41 0 4 []).wr.toNat < 42 := by decide

/-- The events of a transaction with a restart and a reserved event inside (vector RX11). -/
def transaction (ds : List Byte) : List Instr := .rxAddr 0x40 :: ds.map .rxData ++ [.rxRsvd 0]

theorem wit_transaction : State.reset.Inv ∧ State.reset.rxOff = 0 ∧ State.reset.rxOvf = false
    ∧ insidePacket (transaction [1, 2, 3, 4]) ∧ 1 ≤ (dataBytes (transaction [1])).length
    ∧ insidePacket (transaction [1]) ∧ (dataBytes (transaction [1, 2, 3, 4])).length ≤ 4 := by
  refine ⟨⟨by decide, by decide, by decide⟩, by decide, by decide, ?_, by decide, ?_, by decide⟩ <;>
    simp [insidePacket, transaction]
theorem wit_overlong : State.reset.Inv ∧ State.reset.rxOff = 0 ∧ State.reset.rxOvf = false
    ∧ insidePacket (transaction [1, 2, 3, 4, 5]) ∧ 5 ≤ (dataBytes (transaction [1, 2, 3, 4, 5])).length := by
  refine ⟨⟨by decide, by decide, by decide⟩, by decide, by decide, ?_, by decide⟩
  simp [insidePacket, transaction]
theorem wit_handler : agentOf (.rxStop 0) = .rx ∧ (after (.rxStop 0) { busy with txPhase := .wait }).isSome = true
    ∧ State.txPhase { busy with txPhase := .wait } ≠ .iter ∧ (after (.rxData 1) busy).map (·.wr) = some busy.wr := by decide
theorem wit_iter_halted : State.reset.txPhase = .iter ∧ State.reset.enable = false := by decide
theorem wit_iter_ready : busy.txPhase = .iter ∧ busy.enable = true ∧ busy.rd ≠ busy.wr ∧ busy.rd.toNat < 42 := by decide
theorem wit_iter_empty : State.txPhase { State.reset with enable := true } = .iter
    ∧ State.enable { State.reset with enable := true } = true ∧ State.reset.rd = State.reset.wr := by decide
theorem wit_run : (seq .run [.adv 58]).txPhase = .run ∧ (seq .run [.adv 58]).txProg = .adv 58 :: []
    ∧ (seq .run []).txPhase = .run ∧ (seq .run []).txProg = [] := by decide
theorem wit_run_advread : (seq .run [.advread]).txPhase = .run ∧ (seq .run [.advread]).txProg = .advread :: []
    ∧ Memory.wf (seq .run [.advread]).mem = true ∧ (seq .run [.advread]).rd.toNat < 42
    ∧ ∃ x, Instr.uopAdvread 7 = .uopAdvread x := ⟨by decide, by decide, by decide, by decide, 7, rfl⟩
theorem wit_tx_wait : State.txPhase { seq .wait [] with mf := true } = .wait ∧ State.mf { seq .wait [] with mf := true } = true := by
  decide
theorem wit_tx_halt : (seq .halt []).txPhase = .halt ∧ (seq .halt []).txHleft = 0 := by decide
theorem wit_not_enabled : agentOf (.txIterReady 0) = .tx ∧ selectedByTxsel (.txIterReady 0) State.reset = false
    ∧ State.reset.mf = false ∧ State.txHleft { seq .halt [] with txHleft := 1 } ≠ 0
    ∧ State.reset.txPhase ≠ .run ∧ (seq .run [.advread]).txProg.head? ≠ some (.adv 0)
    ∧ (seq .run [.adv 0]).txProg.head? ≠ some .advread := by decide
theorem wit_kick : Instr.txIterReady 0 ≠ .envReset ∧ (after (.txIterReady 0) busy).map (kicks ·.trace) = some 1
    ∧ (after .wsTick busy).map (kicks ·.trace) = some 0 := by decide
theorem wit_release : Instr.rxData 0 ≠ .envReset ∧ (after (.rxData 0) busy).map (releases ·.trace) = some 1
    ∧ (after (.rxStop 0) busy).map (releases ·.trace) = some 0 := by decide
theorem wit_enable_unread : beginsIteration .wsTick = false ∧ beginsIteration (.txIterReady 0) = true
    ∧ (seq .wait []).txPhase ≠ .iter ∧ ∀ e, Instr.txIterReady 0 ≠ .envEnable e := by decide
theorem wit_ownership : agentOf (.rxData 1) = .rx ∧ (after (.rxData 1) busy).isSome = true
    ∧ agentOf (.txIterReady 0) = .tx ∧ (after (.txIterReady 0) busy).isSome = true
    ∧ agentOf .wsTick = .hw ∧ (after .wsTick busy).isSome = true := by decide
theorem wit_commute : busy.Inv ∧ busy.wr ≠ busy.rd ∧ agentOf (.rxStop 0) = .rx ∧ agentOf (.txRunAdvread 0) = .tx
    ∧ (after (.rxStop 0) busy).isSome = true ∧ beginsIteration (.txRunAdvread 0) = false
    ∧ (after (.rxData 1) busy).map (·.wr) = some busy.wr :=
  ⟨busy_inv, by decide, by decide, by decide, by decide, by decide, by decide⟩
theorem wit_tick_commute : busy.inRange = true ∧ agentOf (.rxStop 0) = .rx := by decide
-- R231: each condition a receiver step can meet, at the state its row names
theorem wit_condition_overlong : (ring 0 0 4 []).inRange = true ∧ agentOf (.rxData 5) = .rx
    ∧ (after (.rxData 5) (ring 0 0 4 [])).isSome = true ∧ isOverlong (.rxData 5) (ring 0 0 4 []) :=
  ⟨by decide, by decide, by decide, ⟨5, rfl⟩, by decide⟩
theorem wit_condition_empty_stop : State.reset.inRange = true ∧ (after (.rxStop 0) State.reset).isSome = true
    ∧ isEmptyStop (.rxStop 0) State.reset := ⟨by decide, by decide, ⟨0, rfl⟩, by decide, by decide⟩
theorem wit_condition_rsvd_event : (after (.rxRsvd 9) State.reset).isSome = true ∧ isRsvdEvent (.rxRsvd 9) := ⟨by decide, 9, rfl⟩
theorem wit_condition_overrun_commit : (ring 41 0 1 []).inRange = true ∧ isOverrun false (.rxStop 0) (ring 41 0 1 []) :=
  ⟨by decide, by decide, _, rfl, .inl ⟨by decide, by decide⟩⟩
theorem wit_condition_overrun_store : (ring 0 0 0 []).inRange = true ∧ isOverrun true (.rxData 7) (ring 0 0 0 []) :=
  ⟨by decide, by decide, _, rfl, .inr ⟨rfl, by decide, .inr (by decide)⟩⟩

/-! ### Runs and scripts -/

/-- What `isRun_fair` speaks of exists: with two of the statements, a run goes on from every state that meets the invariant
and has nothing lined up, the reset state for one. -/
theorem run_from (move : Obligations.EveryAgentCanAlwaysMove) (keep : Obligations.StepKeepsRangesAndMemoryForm) {s : State}
    (hi : s.Inv) (hp : s.pending = []) : ∃ r, r 0 = s ∧ FairRun r := by
  have next : ∀ u : { u : State // u.Inv ∧ u.pending = [] }, ∃ v : { v : State // v.Inv ∧ v.pending = [] },
      step u.1 = .next v.1 := fun u => by
    obtain ⟨t, ht⟩ := (move u.1 u.2.1.1).2 u.2.2
    exact ⟨⟨t, (keep _ _ u.2.1 ht).1, by rw [(step_environment ht).1, u.2.2]; rfl⟩, ht⟩
  choose f hf using next
  refine ⟨fun n => (f^[n] ⟨s, hi, hp⟩).1, rfl, isRun_fair fun n => ?_⟩
  rw [Function.iterate_succ_apply']
  exact hf _

-- P5 of 95_test_vectors.md in small: R105 lets the control loop step after the tick, before ENABLE 1 is there to be sampled
theorem test_eager_per_line :
    (runScript .perLine [.enable false, .reset, .tick 1, .enable true] State.reset).map (fun t => (t.txPhase, t.cmp, kicks t.trace))
      = some (.halt, 0, 2) := by decide
-- R15's words: ENABLE 1 is placed at the same time as the tick's end, and comes before the control loop steps
theorem test_eager_per_time :
    (runScript .perTime [.enable false, .reset, .tick 1, .enable true] State.reset).map (fun t => (t.txPhase, t.cmp, kicks t.trace))
      = some (.wait, 500, 2) := by decide +kernel
-- no step but ENABLE before the first RESET (R105), and UNTIL an earlier time (R106), as log entry 17 settles them
theorem test_script_choices : runScript .perLine [.tick 1, .reset] State.reset = none
    ∧ (runScript .perLine [.reset, .tick 1, .untilTime 0] State.reset).map (·.now) = some 1 := by decide

end Sys2Proof.Tests
end

section
/-! 00_scope.md R12: one step of the machine. Which operation a step runs, that every operation but the reserved symbol
answers a next state where both cursors name slots, and that the word of every agent's move selects an operation. -/

namespace Sys2Proof.Machine

/-! ### The operation a step runs -/

/-- The converse of `step_next`. -/
theorem step_of_decode {s : State} {i : Instr} (hr : s.inRange = true)
    (hd : decode s.cfg.nPre (wordOfMove (nextMove s).1 s) = .ok i) : step s = exec i (nextMove s).2 := by
  simp only [step, hr, if_true, fetch, hd]

theorem nextMove_of_pending_cons {s : State} {m : Move} {rest : List Move} (hp : s.pending = m :: rest) :
    nextMove s = (m, { s with pending := rest }) := by
  simp only [nextMove, hp]

theorem nextMove_of_pending_nil {s : State} (hp : s.pending = []) :
    nextMove s = (moveOfChoice (Config.freeChoice s.choices), { s with choices := s.choices + 1 }) := by
  simp only [nextMove, hp]

/-- Settles O10: the two clauses are `step_of_decode` at the two cases of `nextMove`. -/
theorem stepRunsTheDecodedOperation : Obligations.StepRunsTheDecodedOperation := by
  refine ⟨fun s m rest i hr hp hd => ?pending, fun s i hr hp hd => ?free⟩
  case pending =>
    have hn := nextMove_of_pending_cons hp
    simpa only [hn] using step_of_decode hr (by rwa [hn])
  case free =>
    have hn := nextMove_of_pending_nil hp
    simpa only [hn] using step_of_decode hr (by rwa [hn])

/-! ### Every operation answers a next state -/

/-- 10_state.md R32: in range both cursors name slots. -/
theorem slotExists_of_inRange {s : State} (h : s.inRange = true) : slotExists s.wr = true ∧ slotExists s.rd = true := by
  simp only [State.inRange, Bool.and_eq_true] at h
  obtain ⟨⟨⟨⟨hwr, hrd⟩, _⟩, _⟩, _⟩ := h
  exact ⟨hwr, hrd⟩

theorem withSlot_answers {i : Cursor} (t : State) (h : slotExists i = true) : ∃ u, withSlot i t = .next u :=
  ⟨t, withSlot_exists h⟩

theorem noStep_answers (s : State) : ∃ t, s.noStep = .next t := ⟨s, rfl⟩

/-- A guarded operation answers a next state if it does so on both sides of the guard. -/
theorem ite_answers {p : Prop} [Decidable p] {a b : Result} (ha : ∃ t, a = .next t) (hb : ∃ t, b = .next t) :
    ∃ t, (if p then a else b) = .next t := by
  split
  · exact ha
  · exact hb

theorem execRxStop_answers (x : Byte) {s : State} (hwr : slotExists s.wr = true) : ∃ t, execRxStop x s = .next t :=
  ite_answers ⟨_, rfl⟩ (ite_answers ⟨_, rfl⟩ (withSlot_answers _ hwr))

theorem execTxRunAdv_answers (x : BitVec 2) (s : State) : ∃ t, execTxRunAdv x s = .next t := by
  unfold execTxRunAdv
  split
  · exact ⟨_, rfl⟩
  · exact noStep_answers s

theorem execTxRunAdvread_answers (x : BitVec 2) {s : State} (hrd : slotExists s.rd = true) :
    ∃ t, execTxRunAdvread x s = .next t := by
  unfold execTxRunAdvread
  split
  · exact withSlot_answers _ hrd
  · exact noStep_answers s

theorem execTxRunEnd_answers (x1 : BitVec 2) (x0 : BitVec 1) (s : State) : ∃ t, execTxRunEnd x1 x0 s = .next t := by
  unfold execTxRunEnd
  split
  · exact ⟨_, rfl⟩
  · exact noStep_answers s

/-- 60_exceptions.md R230: where both cursors name slots, only the reserved symbol has no next state. -/
theorem exec_answers {i : Instr} {s : State} (hwr : slotExists s.wr = true) (hrd : slotExists s.rd = true)
    (hi : i ≠ .symRsvd) : ∃ t, exec i s = .next t := by
  cases i with
  | symRsvd => exact absurd rfl hi
  -- guarded operations, and those that touch a slot
  | wsWait => exact ite_answers ⟨_, rfl⟩ (noStep_answers s)
  | ringAdvread => exact withSlot_answers _ hrd
  | ringCommit u d c b a => exact withSlot_answers _ hwr
  | rxData d => exact ite_answers (withSlot_answers _ hwr) ⟨_, rfl⟩
  | rxStop x => exact execRxStop_answers x hwr
  | txIterHalted x => exact ite_answers ⟨_, rfl⟩ (noStep_answers s)
  | txIterReady x => exact ite_answers (withSlot_answers _ hrd) (noStep_answers s)
  | txIterEmpty x => exact ite_answers ⟨_, rfl⟩ (noStep_answers s)
  | txRunAdv x => exact execTxRunAdv_answers x s
  | txRunAdvread x => exact execTxRunAdvread_answers x hrd
  | txRunEnd x1 x0 => exact execTxRunEnd_answers x1 x0 s
  | txWait x => exact ite_answers ⟨_, rfl⟩ (noStep_answers s)
  | txHalt x => exact ite_answers ⟨_, rfl⟩ (noStep_answers s)
  | uopAdv d => exact ite_answers ⟨_, rfl⟩ (noStep_answers s)
  | uopAdvread x => exact ite_answers (withSlot_answers _ hrd) (noStep_answers s)
  -- operations that have their effect in every state
  | wsTick | wsAdv | beZero | beOne | bePause => exact ⟨_, rfl⟩
  | fbFrame1 | fbFrame2 | fbFrame3 | fbFrame4 | ringTrynext => exact ⟨_, rfl⟩
  | rxAddr | rxRsvd | envEnable | envReset => exact ⟨_, rfl⟩

/-! ### Every agent's move selects an operation -/

/-- 30_encoding.md R92: every ten bits on `bus_evt` are an event of the receiver. -/
theorem decodeBusEvt_selects_rx {w : Nat} (h : w < 1024) : ∃ i, decodeBusEvt w = .ok i ∧ agentOf i = .rx := by
  unfold decodeBusEvt
  split_ifs
  all_goals exact ⟨_, rfl, rfl⟩

/-- 30_encoding.md R98: every six bits of TXSEL select a step of the control loop. -/
theorem decodeTxsel_selects_tx {w : Nat} (h : w < 64) : ∃ i, decodeTxsel w = .ok i ∧ agentOf i = .tx := by
  unfold decodeTxsel
  split_ifs
  all_goals exact ⟨_, rfl, rfl⟩

/-- 00_scope.md R12: the move of HW, RX, TX or ENV selects a step of one of these agents, whatever the build. -/
theorem decode_moveOfChoice (nPre : Nat) (c : Config.Choice) (s : State) :
    ∃ i, decode nPre (wordOfMove (moveOfChoice c) s) = .ok i ∧ agentOf i ≠ .inner := by
  cases c with
  | tick => exact ⟨.wsTick, rfl, by decide⟩
  | bus w =>
    obtain ⟨i, hd, ha⟩ := decodeBusEvt_selects_rx w.isLt
    exact ⟨i, hd, by simp [ha]⟩
  | tx =>
    obtain ⟨i, hd, ha⟩ := decodeTxsel_selects_tx (txselWord s).isLt
    exact ⟨i, hd, by simp [ha]⟩
  | enable v => cases v with
    | false => exact ⟨.envEnable false, rfl, by decide⟩
    | true => exact ⟨.envEnable true, rfl, by decide⟩
  | reset => exact ⟨.envReset, rfl, by decide⟩

/-! ### Every agent's move answers a next state -/

/-- Taking the next move keeps the ranges of 10_state.md R32. -/
theorem nextMove_inRange (s : State) : (nextMove s).2.inRange = s.inRange := by
  rw [nextMove_state]
  exact inRange_pending s _ _

/-- In range, a step whose next move is an agent's answers a next state. -/
theorem step_answers {s : State} {c : Config.Choice} (hr : s.inRange = true) (hm : (nextMove s).1 = moveOfChoice c) :
    ∃ t, step s = .next t := by
  obtain ⟨i, hd, ha⟩ := decode_moveOfChoice s.cfg.nPre c s
  have hi : i ≠ .symRsvd := by
    rintro rfl
    exact ha rfl
  obtain ⟨hwr, hrd⟩ := slotExists_of_inRange ((nextMove_inRange s).trans hr)
  rw [step_of_decode hr (hm ▸ hd)]
  exact exec_answers hwr hrd hi

/-- Settles O15: `step_answers` at the choice that is put first, and at the free choice. -/
theorem everyAgentCanAlwaysMove : Obligations.EveryAgentCanAlwaysMove := by
  intro s hr
  constructor
  · intro c
    have hr' : (s.present (moveOfChoice c)).inRange = true := hr
    exact step_answers hr' (congrArg Prod.fst (nextMove_of_pending_cons (s.present_pending _)))
  · intro hp
    exact step_answers hr (congrArg Prod.fst (nextMove_of_pending_nil hp))

end Sys2Proof.Machine
end

section
/-! 10_state.md R35: what the stage registers of an implementation stand for. `StageRegs.rest` reads the whole remaining
program off the registers; `head` is its head and `next` drops it, whatever the registers hold, so that the program they
denote after n micro-operations is the one at the beginning of a frame without its first n. -/

namespace Sys2Proof.Machine

/-! ### The remaining bits and micro-operations, read off the registers -/

/-- The bits n down to 0 of a byte, in order of transmission. -/
def bitsDown (v : Byte) (n : Nat) : List Bool :=
  match n with
  | 0 => [v.getLsbD 0]
  | n + 1 => v.getLsbD (n + 1) :: bitsDown v n

/-- The bits of a frame from its data byte j on (30_encoding.md R100). -/
def bitsFromByte (p : Slot) (k : Byte) (j : Nat) : List Bool :=
  ((validBytes p).drop j).flatMap dataGroup ++ byteBits k ++ [true]

/-- The micro-operations of a list of frame bits (42_frame_encoder.md R158). -/
def bitProg (c : Config.Params) (bits : List Bool) : List UOp := bits.flatMap fun v => symProg c (bitSym v)

/-- The frame bit that is on the line, none when the frame is over. -/
def StageRegs.bit (p : Slot) (k : Byte) (r : StageRegs) : Option Bool :=
  match r.stage with
  | .pre => some true
  | .start => some false
  | .data => some ((byteOf p r.byteIdx).getLsbD r.bitIdx)
  | .sep => some false
  | .chk => some (k.getLsbD r.bitIdx)
  | .stop => some true
  | .advread | .pause | .done => none

/-- The frame bits not yet sent in full, the one on the line first. -/
def StageRegs.bitsLeft (p : Slot) (k : Byte) (r : StageRegs) : List Bool :=
  match r.stage with
  | .pre => true :: List.replicate (r.preLeft - 1) true ++ false :: bitsFromByte p k 0
  | .start => false :: bitsFromByte p k 0
  | .data => bitsDown (byteOf p r.byteIdx) r.bitIdx ++ false :: bitsFromByte p k (r.byteIdx + 1)
  | .sep => false :: bitsFromByte p k (r.byteIdx + 1)
  | .chk => bitsDown k r.bitIdx ++ [true]
  | .stop => [true]
  | .advread | .pause | .done => []

/-- The micro-operations left in the iteration: of the bit on the line only one, if its first half is over. -/
def StageRegs.rest (c : Config.Params) (p : Slot) (k : Byte) (r : StageRegs) : List UOp :=
  match r.stage with
  | .pre | .start | .data | .sep | .chk | .stop =>
    (bitProg c (r.bitsLeft p k)).drop r.half.toNat ++ .advread :: symProg c .pause
  | .advread => .advread :: symProg c .pause
  | .pause => symProg c .pause
  | .done => []

/-! ### The bits of a frame -/

theorem byteBits_eq_bitsDown (v : Byte) : byteBits v = bitsDown v 7 := rfl

/-- 41_bit_encoder.md R143: a frame bit is two semi-periods of its duration. -/
theorem bitProg_cons (c : Config.Params) (v : Bool) (bits : List Bool) :
    bitProg c (v :: bits) = .adv (bitDur c v) :: .adv (bitDur c v) :: bitProg c bits := by
  cases v <;> rfl

/-- 10_state.md R25: byte j is valid if j is at most the usage count. -/
theorem validBytes_drop_of_le {p : Slot} {j : Nat} (h : j ≤ p.uc.toNat) :
    (validBytes p).drop j = byteOf p j :: (validBytes p).drop (j + 1) := by
  have hu := p.uc.isLt
  have hlen : j < (validBytes p).length := by simp [validBytes]; omega
  rw [List.drop_eq_getElem_cons hlen]
  congr 1
  match j, (show j < 4 by omega) with
  | 0, _ | 1, _ | 2, _ | 3, _ => simp [validBytes, byteOf]

theorem validBytes_drop_of_lt {p : Slot} {j : Nat} (h : p.uc.toNat < j) : (validBytes p).drop j = [] :=
  List.drop_eq_nil_of_le ((List.length_take_le _ _).trans h)

theorem bitsFromByte_of_le {p : Slot} {k : Byte} {j : Nat} (h : j ≤ p.uc.toNat) :
    bitsFromByte p k j = bitsDown (byteOf p j) 7 ++ false :: bitsFromByte p k (j + 1) := by
  simp [bitsFromByte, validBytes_drop_of_le h, dataGroup, byteBits_eq_bitsDown]

theorem bitsFromByte_of_lt {p : Slot} {k : Byte} {j : Nat} (h : p.uc.toNat < j) :
    bitsFromByte p k j = bitsDown k 7 ++ [true] := by
  simp [bitsFromByte, validBytes_drop_of_lt h, byteBits_eq_bitsDown]

theorem bitsDown_eq_cons (v : Byte) (n : Nat) :
    bitsDown v n = v.getLsbD n :: (if n = 0 then [] else bitsDown v (n - 1)) := by
  cases n <;> rfl

/-- `nextBit` goes to the next bit of the frame (R100). -/
theorem StageRegs.bitsLeft_eq_cons {p : Slot} {k : Byte} {r : StageRegs} {v : Bool} (h : r.bit p k = some v) :
    r.bitsLeft p k = v :: (StageRegs.nextBit p r).bitsLeft p k := by
  obtain ⟨stage, preLeft, byteIdx, bitIdx, half⟩ := r
  cases stage <;> cases h
  case pre =>
    by_cases hp : preLeft ≤ 1
    · simp [bitsLeft, nextBit, hp]
    · obtain ⟨m, rfl⟩ : ∃ m, preLeft = m + 2 := ⟨preLeft - 2, by omega⟩
      simp [bitsLeft, nextBit, List.replicate_succ]
  case start => simp [bitsLeft, nextBit, bitsFromByte_of_le (Nat.zero_le _)]
  case data =>
    simp only [bitsLeft, bitsDown_eq_cons _ bitIdx, nextBit]
    by_cases hb : bitIdx = 0 <;> simp [hb]
  case sep =>
    by_cases hu : byteIdx < p.uc.toNat
    · simp [bitsLeft, nextBit, hu, bitsFromByte_of_le hu]
    · simp [bitsLeft, nextBit, hu, bitsFromByte_of_lt (Nat.lt_succ_of_le (Nat.le_of_not_lt hu))]
  case chk =>
    simp only [bitsLeft, bitsDown_eq_cons _ bitIdx, nextBit]
    by_cases hb : bitIdx = 0 <;> simp [hb]
  case stop => rfl

/-! ### The registers inside a frame -/

theorem StageRegs.head_of_bit {c : Config.Params} {p : Slot} {k : Byte} {r : StageRegs} {v : Bool}
    (h : r.bit p k = some v) : r.head c p k = some (.adv (bitDur c v)) := by
  obtain ⟨stage, preLeft, byteIdx, bitIdx, half⟩ := r
  cases stage <;> cases h <;> rfl

theorem StageRegs.next_of_bit {p : Slot} {k : Byte} {r : StageRegs} {v : Bool} (h : r.bit p k = some v) :
    r.next p = if r.half then StageRegs.nextBit p { r with half := false } else { r with half := true } := by
  obtain ⟨stage, preLeft, byteIdx, bitIdx, half⟩ := r
  cases stage <;> cases h <;> rfl

theorem StageRegs.rest_of_bit {c : Config.Params} {p : Slot} {k : Byte} {r : StageRegs} {v : Bool}
    (h : r.bit p k = some v) :
    r.rest c p k = (bitProg c (r.bitsLeft p k)).drop r.half.toNat ++ .advread :: symProg c .pause := by
  obtain ⟨stage, preLeft, byteIdx, bitIdx, half⟩ := r
  cases stage <;> cases h <;> rfl

/-- After a frame bit comes the first half of another, or ADVREAD. -/
theorem StageRegs.rest_nextBit {c : Config.Params} {p : Slot} {k : Byte} {r : StageRegs} {v : Bool}
    (h : r.bit p k = some v) (hh : r.half = false) :
    (StageRegs.nextBit p r).rest c p k
      = bitProg c ((StageRegs.nextBit p r).bitsLeft p k) ++ .advread :: symProg c .pause := by
  obtain ⟨stage, preLeft, byteIdx, bitIdx, half⟩ := r
  obtain rfl : half = false := hh
  cases stage <;> cases h
  case pre | data | sep | chk => simp only [nextBit]; split <;> rfl
  case start | stop => rfl

/-! ### The registers denote the rest of the program -/

/-- Outside the frame ADVREAD, the pause and the end follow one another. -/
theorem StageRegs.rest_of_bit_none {c : Config.Params} {p : Slot} {k : Byte} {r : StageRegs} (h : r.bit p k = none) :
    r.head c p k = (r.rest c p k).head? ∧ (r.next p).rest c p k = (r.rest c p k).tail := by
  obtain ⟨stage, preLeft, byteIdx, bitIdx, half⟩ := r
  cases stage <;> cases h <;> exact ⟨rfl, rfl⟩

theorem StageRegs.head_eq (c : Config.Params) (p : Slot) (k : Byte) (r : StageRegs) :
    r.head c p k = (r.rest c p k).head? := by
  cases h : r.bit p k with
  | none => exact (rest_of_bit_none h).1
  | some v =>
    rw [head_of_bit h, rest_of_bit h, bitsLeft_eq_cons h, bitProg_cons]
    cases r.half <;> rfl

theorem StageRegs.rest_next (c : Config.Params) (p : Slot) (k : Byte) (r : StageRegs) :
    (r.next p).rest c p k = (r.rest c p k).tail := by
  cases h : r.bit p k with
  | none => exact (rest_of_bit_none h).2
  | some v =>
    rw [next_of_bit h, rest_of_bit h]
    cases hh : r.half with
    | false =>
      have hb : StageRegs.bit p k { r with half := true } = some v := h
      have hl : StageRegs.bitsLeft p k { r with half := true } = r.bitsLeft p k := rfl
      rw [if_neg Bool.false_ne_true, rest_of_bit hb, hl, bitsLeft_eq_cons h, bitProg_cons]
      rfl
    | true =>
      have hb : StageRegs.bit p k { r with half := false } = some v := h
      have hl : StageRegs.bitsLeft p k { r with half := false } = r.bitsLeft p k := rfl
      rw [if_pos rfl, rest_nextBit hb rfl, ← hl, bitsLeft_eq_cons hb, bitProg_cons]
      rfl

theorem StageRegs.rest_iterate (c : Config.Params) (p : Slot) (k : Byte) (n : Nat) (r : StageRegs) :
    ((StageRegs.next p)^[n] r).rest c p k = (r.rest c p k).drop n := by
  induction n with
  | zero => rfl
  | succ n ih => rw [Function.iterate_succ_apply', rest_next, ih, List.tail_drop]

/-- With fuel n the registers denote the first n micro-operations left. -/
theorem StageRegs.denote_eq_take (c : Config.Params) (p : Slot) (k : Byte) (fuel : Nat) (r : StageRegs) :
    StageRegs.denote c p k fuel r = (r.rest c p k).take fuel := by
  induction fuel generalizing r with
  | zero => rfl
  | succ n ih =>
    simp only [denote, head_eq, ih, rest_next]
    cases r.rest c p k <;> rfl

theorem StageRegs.bit_begin (p : Slot) (k : Byte) (nPre : Nat) :
    (StageRegs.begin nPre).bit p k = some (decide (nPre ≠ 0)) := by
  cases nPre <;> rfl

theorem StageRegs.bitsLeft_begin (p : Slot) (k : Byte) (nPre : Nat) :
    (StageRegs.begin nPre).bitsLeft p k = frameBits nPre (validBytes p) k := by
  cases nPre <;> simp [begin, bitsLeft, frameBits, bitsFromByte, List.replicate_succ]

/-- At the beginning of a frame the whole program of 45_control_loop.md R212 is left. -/
theorem StageRegs.rest_begin (c : Config.Params) (p : Slot) :
    (StageRegs.begin c.nPre).rest c p (checksum p) = packetProg c p := by
  rw [rest_of_bit (bit_begin p _ _), bitsLeft_begin]
  rfl

/-- Settles O9: the registers after n micro-operations denote what `drop n` leaves of the program, and the fuel suffices
for all of it. -/
theorem stageRegistersDenoteTheProgram : Obligations.StageRegistersDenoteTheProgram := by
  intro c p n fuel _ hfuel
  rw [StageRegs.denote_eq_take, StageRegs.rest_iterate, StageRegs.rest_begin]
  exact List.take_of_length_le (by rwa [List.length_drop])

end Sys2Proof.Machine
end

section
/-! 10_state.md R29 to R34: what every step keeps, who writes what, and that nothing reads the observer variables. Each is a
case split over the operations; what the guards and the slot check of an operation come to is said once, for any predicate
of its next state. -/

namespace Sys2Proof.Machine

/-! ### What holds of every next state an operation answers -/

/-- If the result is a next state, P holds of it. -/
def AllNext (P : State → Prop) (r : Result) : Prop := ∀ t, r = .next t → P t

section
variable {P : State → Prop} {s t : State}

theorem allNext_next (h : P t) : AllNext P (.next t) := by
  rintro _ ⟨⟩
  exact h

theorem allNext_refused (e : Refusal) : AllNext P (.refused e) := by
  rintro _ ⟨⟩

theorem allNext_ite {p : Prop} [Decidable p] {a b : Result} (ha : p → AllNext P a) (hb : ¬p → AllNext P b) :
    AllNext P (if p then a else b) := by
  split
  case isTrue h => exact ha h
  case isFalse h => exact hb h

theorem allNext_withSlot {i : Cursor} (h : slotExists i = true → P t) : AllNext P (withSlot i t) :=
  allNext_ite (fun hi => allNext_next (h hi)) fun _ => allNext_refused _

/-- A step that is taken if a guard holds, and otherwise changes nothing. -/
theorem allNext_guard {p : Prop} [Decidable p] {a : Result} (hs : P s) (ha : p → AllNext P a) :
    AllNext P (if p then a else s.noStep) :=
  allNext_ite ha fun _ => allNext_next hs

theorem allNext_txRunAdv (x : BitVec 2) (hs : P s)
    (h : ∀ d rest, s.txPhase = .run → s.txProg = .adv d :: rest → P (s.runAdv d)) : AllNext P (execTxRunAdv x s) := by
  unfold execTxRunAdv
  split
  case h_1 d rest hp hg => exact allNext_next (h d rest hp hg)
  case h_2 => exact allNext_next hs

theorem allNext_txRunAdvread (x : BitVec 2) (hs : P s)
    (h : ∀ rest, s.txPhase = .run → s.txProg = .advread :: rest → slotExists s.rd = true → P s.runAdvread) :
    AllNext P (execTxRunAdvread x s) := by
  unfold execTxRunAdvread
  split
  case h_1 rest hp hg => exact allNext_withSlot (h rest hp hg)
  case h_2 => exact allNext_next hs

theorem allNext_txRunEnd (x1 : BitVec 2) (x0 : BitVec 1) (hs : P s)
    (h : s.txPhase = .run → s.txProg = [] → P (s.goto .iter)) : AllNext P (execTxRunEnd x1 x0 s) := by
  unfold execTxRunEnd
  split
  case h_1 hp hg => exact allNext_next (h hp hg)
  case h_2 => exact allNext_next hs

end

/-! ### The invariant, field by field -/

/-- 10_state.md R32, a clause per row: `inRange` as facts to use one by one. -/
structure State.Ranges (s : State) : Prop where
  wr : slotExists s.wr = true
  rd : slotExists s.rd = true
  off : s.rxOff.toNat ≤ 4
  ovf : s.rxOvf = true → s.rxOff = 4
  prog : s.txPhase = .iter ∨ s.txPhase = .halt → s.txProg = []
  hleft : s.txPhase ≠ .halt → s.txHleft = 0

theorem State.ranges_of_inRange {s : State} (h : s.inRange = true) : s.Ranges := by
  simp only [State.inRange, Bool.and_eq_true, decide_eq_true_eq, Bool.or_eq_true, Bool.not_eq_true', beq_iff_eq] at h
  obtain ⟨⟨⟨⟨wr, rd⟩, off⟩, ovf⟩, phase⟩ := h
  refine ⟨wr, rd, off, fun ho => ovf.resolve_left (by simp [ho]), fun hp => ?prog, fun hp => ?hleft⟩
  case prog => rcases hp with hp | hp <;> simp_all
  case hleft => cases hq : s.txPhase <;> simp_all

theorem State.Ranges.inRange {s : State} (h : s.Ranges) : s.inRange = true := by
  obtain ⟨wr, rd, off, ovf, prog, hleft⟩ := h
  have hovf : (!s.rxOvf || s.rxOff == 4) = true := by
    cases ho : s.rxOvf <;> simp_all
  simp only [State.inRange, wr, rd, off, hovf, decide_true, Bool.true_and]
  cases hp : s.txPhase <;> simp_all

theorem State.Inv.ranges {s : State} (h : s.Inv) : s.Ranges := ranges_of_inRange h.1
theorem State.Inv.mem_wf {s : State} (h : s.Inv) : Memory.wf s.mem = true := h.2.1
theorem State.Inv.cfg_wf {s : State} (h : s.Inv) : s.cfg.wf := h.2.2

/-- The sequencer's registers may be set to whatever their own row of R32 allows. -/
theorem State.Inv.setSequencer {s : State} (h : s.Inv) (ph : Phase) (prog : List UOp) (hleft : Nat)
    (hprog : ph = .iter ∨ ph = .halt → prog = []) (hhl : ph ≠ .halt → hleft = 0) :
    State.Inv { s with txPhase := ph, txProg := prog, txHleft := hleft } := by
  have r := h.ranges
  exact ⟨State.Ranges.inRange ⟨r.wr, r.rd, r.off, r.ovf, hprog, hhl⟩, h.mem_wf, h.cfg_wf⟩

theorem State.Inv.setReceiver {s : State} (h : s.Inv) (off : Offset) (ovf : Bool) (hoff : off.toNat ≤ 4)
    (hovf : ovf = true → off = 4) : State.Inv { s with rxOff := off, rxOvf := ovf } := by
  have r := h.ranges
  exact ⟨State.Ranges.inRange ⟨r.wr, r.rd, hoff, hovf, r.prog, r.hleft⟩, h.mem_wf, h.cfg_wf⟩

theorem State.Inv.setRing {s : State} (h : s.Inv) (wr rd : Cursor) (m : Memory) (hwr : slotExists wr = true)
    (hrd : slotExists rd = true) (hm : Memory.wf m = true) : State.Inv { s with wr := wr, rd := rd, mem := m } := by
  have r := h.ranges
  exact ⟨State.Ranges.inRange ⟨hwr, hrd, r.off, r.ovf, r.prog, r.hleft⟩, hm, h.cfg_wf⟩

/-! ### The named operations keep the invariant -/

section
variable {s : State}

theorem State.Inv.advanceRead (h : s.Inv) : s.advanceRead.Inv :=
  h.setRing s.wr (incCap s.rd) _ h.ranges.wr (slotExists_incCap _) (clearSlot_spec h.mem_wf h.ranges.rd).1

theorem State.Inv.commit (h : s.Inv) (u : Usage) : (s.commit u).Inv :=
  h.setRing (incCap s.wr) s.rd _ (slotExists_incCap _) h.ranges.rd (writeUsage_spec h.mem_wf h.ranges.wr).1

/-- R192 stores only while `rx_off` is below 4, so that it stays at most 4, and the packet has had no byte dropped. -/
theorem State.Inv.appendByte (h : s.Inv) (d : Byte) (hoff : s.rxOff.toNat < Config.slotBytes) : (s.appendByte d).Inv := by
  have hm := (writeByte_spec (k := s.rxOff.toNat) (d := d) h.mem_wf h.ranges.wr).1
  refine (h.setRing s.wr s.rd _ h.ranges.wr h.ranges.rd hm).setReceiver (s.rxOff + 1) s.rxOvf ?off fun ho => ?ovf
  case off => simp only [Config.slotBytes] at hoff; bv_omega
  case ovf => exact absurd hoff (by rw [h.ranges.ovf ho]; decide)

/-- R192 drops a byte only when `rx_off` is 4. -/
theorem State.Inv.dropByte (h : s.Inv) (hoff : ¬s.rxOff.toNat < Config.slotBytes) : State.Inv { s with rxOvf := true } :=
  h.setReceiver s.rxOff true h.ranges.off fun _ => by
    have := h.ranges.off
    simp only [Config.slotBytes] at hoff
    bv_omega

theorem State.Inv.restartPacket (h : s.Inv) : s.restartPacket.Inv := h.setReceiver 0 false (by decide) nofun

/-- R193 commits only a packet that has had no byte dropped. -/
theorem State.Inv.commitPacket (h : s.Inv) (u : Usage) (hovf : ¬s.rxOvf = true) :
    State.Inv { s.commit u with rxOff := 0 } :=
  (h.commit u).setReceiver 0 s.rxOvf (by decide) fun ho => absurd ho hovf

theorem State.Inv.startProg (h : s.Inv) (p : List UOp) (hp : s.txPhase = .iter) : (s.startProg p).Inv :=
  h.setSequencer .run p s.txHleft (by simp) fun _ => h.ranges.hleft (by simp [hp])

theorem State.Inv.startDelay (h : s.Inv) (n : Nat) (hp : s.txPhase = .iter) :
    State.Inv { s with txPhase := .halt, txHleft := n } :=
  h.setSequencer .halt s.txProg n (fun _ => h.ranges.prog (.inl hp)) nofun

theorem State.Inv.runAdv (h : s.Inv) (d : Ticks) (hp : s.txPhase = .run) : (s.runAdv d).Inv :=
  h.setSequencer .wait s.txProg.tail s.txHleft (by simp) fun _ => h.ranges.hleft (by simp [hp])

theorem State.Inv.runAdvread (h : s.Inv) (hp : s.txPhase = .run) : s.runAdvread.Inv :=
  h.advanceRead.setSequencer s.txPhase s.txProg.tail s.txHleft (by simp [hp]) fun _ => h.ranges.hleft (by simp [hp])

theorem State.Inv.goto_run (h : s.Inv) (hp : s.txPhase = .wait) : (s.goto .run).Inv :=
  h.setSequencer .run s.txProg s.txHleft (by simp) fun _ => h.ranges.hleft (by simp [hp])

theorem State.Inv.goto_iter (h : s.Inv) (hprog : s.txProg = []) (hl : s.txHleft = 0) : (s.goto .iter).Inv :=
  h.setSequencer .iter s.txProg s.txHleft (fun _ => hprog) fun _ => hl

theorem State.Inv.countTick (h : s.Inv) : s.countTick.Inv := by
  obtain ⟨-, ht⟩ | ⟨-, ht⟩ := countTick_cases s <;> rw [ht] <;> exact h

theorem State.Inv.countDelay (h : s.Inv) : s.countDelay.Inv :=
  h.setSequencer s.txPhase s.txProg (s.txHleft - 1) h.ranges.prog fun hp => by rw [h.ranges.hleft hp]

/-- A reset needs no more than a legal build. -/
theorem State.Inv.afterReset (h : s.Inv) : s.afterReset.Inv := ⟨rfl, Memory.wf_nil, h.cfg_wf⟩

end

/-! ### Every step keeps the invariant and the build -/

/-- The state meets the invariant, in a given build. -/
def State.InvIn (c : Config.Params) (s : State) : Prop := s.Inv ∧ s.cfg = c

theorem countTick_cfg (s : State) : s.countTick.cfg = s.cfg := by
  obtain ⟨-, ht⟩ | ⟨-, ht⟩ := countTick_cases s <;> rw [ht]

/-- Every operation keeps the invariant and the build, at whatever interface it is presented. -/
theorem exec_keeps_inv (i : Instr) {s : State} (h : s.Inv) : AllNext (State.InvIn s.cfg) (exec i s) := by
  have stay : s.InvIn s.cfg := ⟨h, rfl⟩
  cases i with
  | symRsvd => exact allNext_refused _
  -- operations that write no register R32 speaks of
  | wsAdv | beZero | beOne | bePause | fbFrame1 | fbFrame2 | fbFrame3 | fbFrame4 => exact allNext_next ⟨h, rfl⟩
  | ringTrynext | rxAddr | rxRsvd | envEnable => exact allNext_next ⟨h, rfl⟩
  | wsTick => exact allNext_next ⟨h.countTick.countDelay, countTick_cfg s⟩
  | wsWait => exact allNext_guard stay fun _ => allNext_next ⟨h, rfl⟩
  | ringAdvread => exact allNext_withSlot fun _ => ⟨h.advanceRead, rfl⟩
  | ringCommit u d c b a => exact allNext_withSlot fun _ => ⟨h.commit u, rfl⟩
  | rxData d =>
    exact allNext_ite (fun ho => allNext_withSlot fun _ => ⟨h.appendByte d ho, rfl⟩)
      fun ho => allNext_next ⟨h.dropByte ho, rfl⟩
  | rxStop x =>
    exact allNext_ite (fun _ => allNext_next ⟨h.restartPacket, rfl⟩) fun ho =>
      allNext_ite (fun _ => allNext_next stay) fun _ =>
        allNext_withSlot fun _ => ⟨h.commitPacket (usageOfOffset s.rxOff) ho, rfl⟩
  | txIterHalted x => exact allNext_guard stay fun ⟨hp, _⟩ => allNext_next ⟨h.startDelay s.cfg.haltDelay hp, rfl⟩
  | txIterReady x =>
    exact allNext_guard stay fun ⟨hp, _⟩ =>
      allNext_withSlot fun _ => ⟨h.startProg (packetProg s.cfg (readSlot s.mem s.rd)) hp, rfl⟩
  | txIterEmpty x => exact allNext_guard stay fun ⟨hp, _⟩ => allNext_next ⟨h.startProg (idleProg s.cfg) hp, rfl⟩
  | txRunAdv x => exact allNext_txRunAdv x stay fun d _ hp _ => ⟨h.runAdv d hp, rfl⟩
  | txRunAdvread x => exact allNext_txRunAdvread x stay fun _ hp _ _ => ⟨h.runAdvread hp, rfl⟩
  | txRunEnd x1 x0 =>
    exact allNext_txRunEnd x1 x0 stay fun hp hg => ⟨h.goto_iter hg (h.ranges.hleft (by simp [hp])), rfl⟩
  | txWait x => exact allNext_guard stay fun ⟨hp, _⟩ => allNext_next ⟨h.goto_run hp, rfl⟩
  | txHalt x => exact allNext_guard stay fun ⟨hp, hl⟩ => allNext_next ⟨h.goto_iter (h.ranges.prog (.inr hp)) hl, rfl⟩
  | uopAdv d => exact allNext_guard stay fun ⟨hp, _⟩ => allNext_next ⟨h.runAdv d hp, rfl⟩
  | uopAdvread x => exact allNext_guard stay fun ⟨hp, _⟩ => allNext_withSlot fun _ => ⟨h.runAdvread hp, rfl⟩
  | envReset => exact allNext_next ⟨h.afterReset, rfl⟩

/-- Taking the next move keeps the invariant and the build. -/
theorem State.Inv.nextMove {s : State} (h : s.Inv) : (nextMove s).2.InvIn s.cfg := by
  rw [nextMove_state]
  exact ⟨h, rfl⟩

/-- Settles O16: `exec_keeps_inv` for the operation the step runs, in the state without its move. -/
theorem stepKeepsRangesAndMemoryForm : Obligations.StepKeepsRangesAndMemoryForm := by
  intro s t h hstep
  obtain ⟨_, i, _, hexec⟩ := step_next hstep
  obtain ⟨hinv, hcfg⟩ := h.nextMove
  obtain ⟨htinv, htcfg⟩ := exec_keeps_inv i hinv t hexec
  exact ⟨htinv, htcfg.trans hcfg⟩

/-- Settles O17: `reset_memory_wf` and two facts of the reset state. -/
theorem resetIsInRange : Obligations.ResetIsInRange := ⟨rfl, reset_memory_wf, by decide⟩

/-- Settles O12: the guard of `step`. -/
theorem outOfRangeStateIsRefused : Obligations.OutOfRangeStateIsRefused := fun _ h => if_neg (by simp [h])

/-! ### Who writes what -/

/-- 10_state.md R31: what a receiver step from s may leave, and the one slot it may have written. -/
def RxOwns (s t : State) : Prop :=
  t = { s with rxOff := t.rxOff, rxOvf := t.rxOvf, wr := t.wr, mem := t.mem, trace := t.trace }
  ∧ ∀ a, (∀ f, a ≠ cellAddr s.wr f) → t.mem.read a = s.mem.read a

/-- 10_state.md R31: what a control loop step may leave, and the one slot it may have written; it clears the flag
but never sets it (R27). -/
def TxOwns (s t : State) : Prop :=
  t = { s with txPhase := t.txPhase, txProg := t.txProg, txHleft := t.txHleft, fr := t.fr, frChk := t.frChk,
               cmp := t.cmp, mf := t.mf, rd := t.rd, mem := t.mem, trace := t.trace }
  ∧ (t.mf = true → s.mf = true)
  ∧ ∀ a, (∀ f, a ≠ cellAddr s.rd f) → t.mem.read a = s.mem.read a

/-- 10_state.md R31: what a tick may leave; it sets the flag but never clears it (R27). -/
def HwOwns (s t : State) : Prop :=
  t = { s with cnt := t.cnt, pin := t.pin, mf := t.mf, txHleft := t.txHleft, now := t.now, trace := t.trace }
  ∧ (s.mf = true → t.mf = true)

/-- The frame of `clearSlot_spec`, which holds of any memory and any index. -/
theorem clearSlot_read_other {m : Memory} {i : Cursor} {a : Nat} (h : ∀ f, a ≠ cellAddr i f) :
    (clearSlot m i).read a = m.read a := by
  simp only [clearSlot, Memory.read_write_other (h _)]

/-- The receiver writes at most the slot at `wr`: a data byte or a usage count. -/
theorem exec_rx_owns {i : Instr} (s : State) (hi : agentOf i = .rx) : AllNext (RxOwns s) (exec i s) := by
  cases i <;> cases hi
  case rxAddr x => exact allNext_next ⟨rfl, fun _ _ => rfl⟩
  case rxData d =>
    exact allNext_ite (fun _ => allNext_withSlot fun _ => ⟨rfl, fun _ ha => Memory.read_write_other (ha _)⟩)
      fun _ => allNext_next ⟨rfl, fun _ _ => rfl⟩
  case rxStop x =>
    exact allNext_ite (fun _ => allNext_next ⟨rfl, fun _ _ => rfl⟩) fun _ =>
      allNext_ite (fun _ => allNext_next ⟨rfl, fun _ _ => rfl⟩) fun _ =>
        allNext_withSlot fun _ => ⟨rfl, fun _ ha => Memory.read_write_other (ha _)⟩
  case rxRsvd x => exact allNext_next ⟨rfl, fun _ _ => rfl⟩

/-- The control loop writes no slot but the one ADVREAD clears, and only TX_WAIT touches the flag. -/
theorem exec_tx_owns {i : Instr} (s : State) (hi : agentOf i = .tx) : AllNext (TxOwns s) (exec i s) := by
  have stay : TxOwns s s := ⟨rfl, id, fun _ _ => rfl⟩
  cases i <;> cases hi
  case txIterHalted x => exact allNext_guard stay fun _ => allNext_next ⟨rfl, id, fun _ _ => rfl⟩
  case txIterReady x => exact allNext_guard stay fun _ => allNext_withSlot fun _ => ⟨rfl, id, fun _ _ => rfl⟩
  case txIterEmpty x => exact allNext_guard stay fun _ => allNext_next ⟨rfl, id, fun _ _ => rfl⟩
  case txRunAdv x => exact allNext_txRunAdv x stay fun _ _ _ _ => ⟨rfl, id, fun _ _ => rfl⟩
  case txRunAdvread x => exact allNext_txRunAdvread x stay fun _ _ _ _ => ⟨rfl, id, fun _ ha => clearSlot_read_other ha⟩
  case txRunEnd x1 x0 => exact allNext_txRunEnd x1 x0 stay fun _ _ => ⟨rfl, id, fun _ _ => rfl⟩
  case txWait x => exact allNext_guard stay fun _ => allNext_next ⟨rfl, nofun, fun _ _ => rfl⟩
  case txHalt x => exact allNext_guard stay fun _ => allNext_next ⟨rfl, id, fun _ _ => rfl⟩

theorem countTick_owns (s : State) : HwOwns s s.countTick.countDelay := by
  obtain ⟨-, ht⟩ | ⟨-, ht⟩ := countTick_cases s <;> rw [ht]
  · exact ⟨rfl, fun _ => rfl⟩
  · exact ⟨rfl, id⟩

theorem exec_hw_owns {i : Instr} (s : State) (hi : agentOf i = .hw) : AllNext (HwOwns s) (exec i s) := by
  cases i <;> cases hi
  case wsTick => exact allNext_next (countTick_owns s)

/-- Settles O56: one column of the ownership table per agent. -/
theorem eachAgentWritesOnlyWhatItOwns : Obligations.EachAgentWritesOnlyWhatItOwns := fun _ s t h =>
  ⟨fun hi => exec_rx_owns s hi t h, fun hi => exec_tx_owns s hi t h, fun hi => exec_hw_owns s hi t h⟩

/-! ### The observer variables -/

/-- The state with the observer variables at any values (10_state.md R34). -/
def State.observed (n : Nat) (tr : List Event) (s : State) : State := { s with now := n, trace := tr }

/-- Two results that differ at most in the observer variables of their next states. -/
def Alike (a b : Result) : Prop := mapNext State.unobserved a = mapNext State.unobserved b

theorem alike_next {t u : State} (h : t.unobserved = u.unobserved) : Alike (.next t) (.next u) :=
  congrArg Host.Outcome.next h

theorem alike_ite {p : Prop} [Decidable p] {a b a' b' : Result} (ha : Alike a a') (hb : Alike b b') :
    Alike (if p then a else b) (if p then a' else b') := by
  split
  · exact ha
  · exact hb

theorem alike_withSlot {i : Cursor} {t u : State} (h : t.unobserved = u.unobserved) :
    Alike (withSlot i t) (withSlot i u) :=
  alike_ite (alike_next h) rfl

section
variable (n : Nat) (tr : List Event) (s : State)

theorem countTick_observed : (s.observed n tr).countTick.countDelay.unobserved = s.countTick.countDelay.unobserved := by
  by_cases hm : matchAt (s.cnt + 1) s.cmp = true
  all_goals simp only [State.countTick, State.observed, hm]; rfl

theorem execTxRunAdv_observed (x : BitVec 2) : Alike (execTxRunAdv x (s.observed n tr)) (execTxRunAdv x s) := by
  simp only [execTxRunAdv, State.observed]
  split <;> rfl

theorem execTxRunAdvread_observed (x : BitVec 2) :
    Alike (execTxRunAdvread x (s.observed n tr)) (execTxRunAdvread x s) := by
  simp only [execTxRunAdvread, State.observed]
  split
  · exact alike_withSlot rfl
  · rfl

theorem execTxRunEnd_observed (x1 : BitVec 2) (x0 : BitVec 1) :
    Alike (execTxRunEnd x1 x0 (s.observed n tr)) (execTxRunEnd x1 x0 s) := by
  simp only [execTxRunEnd, State.observed]
  split <;> rfl

/-- 10_state.md R34: no guard reads the observer variables, and no effect but those on themselves. -/
theorem exec_observed (i : Instr) : Alike (exec i (s.observed n tr)) (exec i s) := by
  cases i with
  | wsTick => exact alike_next (countTick_observed n tr s)
  -- operations without a guard
  | wsAdv | beZero | beOne | bePause | symRsvd | fbFrame1 | fbFrame2 | fbFrame3 | fbFrame4 | ringTrynext => rfl
  | rxAddr | rxRsvd | envEnable | envReset => rfl
  | wsWait => exact alike_ite rfl rfl
  | ringAdvread | ringCommit => exact alike_withSlot rfl
  | rxData => exact alike_ite (alike_withSlot rfl) rfl
  | rxStop => exact alike_ite rfl (alike_ite rfl (alike_withSlot rfl))
  | txIterReady | uopAdvread => exact alike_ite (alike_withSlot rfl) rfl
  | txIterHalted | txIterEmpty | txWait | txHalt | uopAdv => exact alike_ite rfl rfl
  | txRunAdv x => exact execTxRunAdv_observed n tr s x
  | txRunAdvread x => exact execTxRunAdvread_observed n tr s x
  | txRunEnd x1 x0 => exact execTxRunEnd_observed n tr s x1 x0

end

/-- Settles O60: `exec_observed`, with the state it speaks of written out. -/
theorem observersInfluenceNothing : Obligations.ObserversInfluenceNothing := fun i s n tr => exec_observed n tr s i

/-! ### The reset state -/

/-- Settles O55: the unlisted cells of the empty memory read as 0, and the registers are those of `State.reset`. -/
theorem resetStateHoldsTheResetValues : Obligations.ResetStateHoldsTheResetValues :=
  ⟨rfl, rfl, rfl, rfl, rfl, rfl, rfl, rfl, fun _ => rfl, rfl, rfl, rfl, rfl, rfl, rfl, rfl⟩

end Sys2Proof.Machine
end

section
/-! 20_memory.md R72: while the cursors differ, a receiver step and a control loop step commute. What a receiver step does
is a fixed change of what the receiver owns (`RxEffect`), read off the receiver's registers alone; each control loop step is
then carried through such a change, and the one place where both write, the slot memory, is two slots that do not meet. -/

namespace Sys2Proof.Machine

/-! ### Writes to different cells commute -/

/-- In canonical form it does not matter in which order two cells were written. -/
theorem Memory.write_comm {m : Memory} {a b : Nat} {v w : Byte} (h : Memory.wf m = true) (hab : a ≠ b) :
    (m.write a v).write b w = (m.write b w).write a v := by
  have hm := Memory.wf_rises h
  have rises : ∀ {n : Memory} {c : Nat} {x : Byte}, n.risesFrom 0 = true → (n.write c x).risesFrom 0 = true :=
    fun hn => Memory.risesFrom_write hn (Nat.zero_le _)
  refine Memory.rises_ext (rises (rises hm)) (rises (rises hm)) fun c => ?_
  by_cases hb : c = b
  · subst hb
    rw [Memory.read_write_same (rises hm), Memory.read_write_other (Ne.symm hab), Memory.read_write_same hm]
  · rw [Memory.read_write_other hb]
    by_cases ha : c = a
    · subst ha
      rw [Memory.read_write_same hm, Memory.read_write_same (rises hm)]
    · rw [Memory.read_write_other ha, Memory.read_write_other ha, Memory.read_write_other hb]

/-- Slots do not meet: a write to a field of one commutes with clearing another. -/
theorem clearSlot_write {m : Memory} {i j : Cursor} {f : Field} {v : Byte} (h : Memory.wf m = true)
    (hj : slotExists j = true) (hij : i ≠ j) :
    clearSlot (m.write (cellAddr i f) v) j = (clearSlot m j).write (cellAddr i f) v := by
  have hne : ∀ g, cellAddr i f ≠ cellAddr j g := fun g he => hij (cellAddr_inj he).1
  have wf0 : ∀ {n : Memory} {g : Field}, n.wf = true → Memory.wf (n.write (cellAddr j g) 0) = true :=
    fun hn => Memory.wf_write hn (cellFits_zero hj)
  unfold clearSlot
  rw [Memory.write_comm h (hne .b0), Memory.write_comm (wf0 h) (hne .b1), Memory.write_comm (wf0 (wf0 h)) (hne .b2),
    Memory.write_comm (wf0 (wf0 (wf0 h))) (hne .b3), Memory.write_comm (wf0 (wf0 (wf0 (wf0 h)))) (hne .uc)]

theorem readSlot_write {m : Memory} {i j : Cursor} {f : Field} {v : Byte} (hij : i ≠ j) :
    readSlot (m.write (cellAddr i f) v) j = readSlot m j :=
  readSlot_congr fun _ => Memory.read_write_other fun he => hij (cellAddr_inj he).1.symm

/-! ### What a receiver step does -/

/-- The receiver's registers after a step, the field it stores in the slot at the write cursor, if any, and the events it
records (10_state.md R31). -/
structure RxEffect where
  off : Offset
  ovf : Bool
  wr : Cursor
  store : Option (Field × Byte)
  events : List Event

/-- The slot memory after the effect, where the write cursor before it is `i`. -/
def RxEffect.memory (q : RxEffect) (i : Cursor) (m : Memory) : Memory :=
  match q.store with
  | some (f, v) => m.write (cellAddr i f) v
  | none => m

/-- The state after the effect: nothing changes but what the receiver owns. -/
def RxEffect.apply (q : RxEffect) (s : State) : State :=
  { s with rxOff := q.off, rxOvf := q.ovf, wr := q.wr, mem := q.memory s.wr s.mem, trace := s.trace ++ q.events }

/-- The effect of a receiver step, from the receiver's registers alone (44_async_receiver.md R191 to R196); nothing for
the reserved event, and for an operation that is not the receiver's. -/
def rxEffect (e : Instr) (off : Offset) (ovf : Bool) (wr : Cursor) : RxEffect :=
  match e with
  | .rxAddr _ => ⟨off, ovf, wr, none, [.rel]⟩
  | .rxData d =>
    if off.toNat < Config.slotBytes then ⟨off + 1, ovf, wr, some (Field.byte off.toNat, d), [.rel]⟩
    else ⟨off, true, wr, none, [.rel]⟩
  | .rxStop _ =>
    if ovf then ⟨0, false, wr, none, []⟩
    else if off.toNat = 0 then ⟨off, ovf, wr, none, []⟩
    else ⟨0, ovf, incCap wr, some (.uc, (usageOfOffset off).setWidth 8), []⟩
  | _ => ⟨off, ovf, wr, none, []⟩

theorem RxEffect.readSlot_memory (q : RxEffect) {i j : Cursor} (m : Memory) (hij : i ≠ j) :
    readSlot (q.memory i m) j = readSlot m j := by
  unfold RxEffect.memory
  split
  · exact readSlot_write hij
  · rfl

theorem RxEffect.clearSlot_memory (q : RxEffect) {i j : Cursor} {m : Memory} (h : Memory.wf m = true)
    (hj : slotExists j = true) (hij : i ≠ j) : clearSlot (q.memory i m) j = q.memory i (clearSlot m j) := by
  unfold RxEffect.memory
  split
  · exact clearSlot_write h hj hij
  · rfl

@[simp] theorem RxEffect.apply_txPhase (q : RxEffect) (s : State) : (q.apply s).txPhase = s.txPhase := rfl
@[simp] theorem RxEffect.apply_txProg (q : RxEffect) (s : State) : (q.apply s).txProg = s.txProg := rfl
@[simp] theorem RxEffect.apply_rd (q : RxEffect) (s : State) : (q.apply s).rd = s.rd := rfl

@[simp] theorem RxEffect.apply_keep (s : State) : RxEffect.apply ⟨s.rxOff, s.rxOvf, s.wr, none, []⟩ s = s := by
  simp [RxEffect.apply, RxEffect.memory]

/-- 10_state.md R31: a receiver step reads no register but the receiver's own. -/
theorem exec_rx {e : Instr} {s : State} (he : agentOf e = .rx) (hwr : slotExists s.wr = true) :
    exec e s = .next ((rxEffect e s.rxOff s.rxOvf s.wr).apply s) := by
  cases e <;> cases he
  case rxAddr a => rfl
  case rxData d =>
    simp only [exec, execRxData, rxEffect]
    split
    · exact withSlot_exists hwr
    · rfl
  case rxStop x =>
    simp only [exec, execRxStop, rxEffect]
    split_ifs
    · simp [RxEffect.apply, RxEffect.memory, State.restartPacket]
    · simp
    · simp [withSlot_exists hwr, RxEffect.apply, RxEffect.memory, State.commit, writeUsage]
  case rxRsvd x => simp [exec, execRxRsvd, rxEffect]

/-! ### A control loop step carried through a receiver's effect -/

/-- Equal but for the order of the trace. -/
def SameButOrder (a b : State) : Prop := { a with trace := [] } = { b with trace := [] } ∧ a.trace.Perm b.trace

/-- A step's result after the effect q is q applied to its result without it, but for the order of the trace. -/
def Carries (q : RxEffect) (after before : Result) : Prop :=
  ∃ a b, after = .next a ∧ before = .next b ∧ SameButOrder a (q.apply b)

section
variable {q : RxEffect} {s : State}

theorem carries_next {a b : State} (h : SameButOrder a (q.apply b)) : Carries q (.next a) (.next b) :=
  ⟨a, b, rfl, rfl, h⟩

theorem carries_withSlot {i : Cursor} {a b : State} (hi : slotExists i = true) (h : SameButOrder a (q.apply b)) :
    Carries q (withSlot i a) (withSlot i b) :=
  ⟨a, b, withSlot_exists hi, withSlot_exists hi, h⟩

theorem carries_noStep : Carries q (q.apply s).noStep s.noStep := carries_next ⟨rfl, .refl _⟩

/-- A step taken on the same guard with the effect and without it. -/
theorem carries_guard {p : Prop} [Decidable p] {ra rb : Result} (h : p → Carries q ra rb) :
    Carries q (if p then ra else (q.apply s).noStep) (if p then rb else s.noStep) := by
  split
  case isTrue hp => exact h hp
  case isFalse => exact carries_noStep

/-- The receiver's events and the kick of an iteration, in either order. -/
theorem trace_kick_perm (tr evs : List Event) : (tr ++ evs ++ [Event.kick]).Perm (tr ++ [Event.kick] ++ evs) := by
  simpa only [List.append_assoc] using List.perm_append_comm.append_left tr

theorem ready_apply (hwr : q.wr = s.wr) : (q.apply s).ready = s.ready := by
  simp only [State.ready, RxEffect.apply, hwr]

theorem carries_txIterReady (x : BitVec 2) (hrd : slotExists s.rd = true) (hne : s.wr ≠ s.rd) (hwr : q.wr = s.wr) :
    Carries q (execTxIterReady x (q.apply s)) (execTxIterReady x s) := by
  have hslot : readSlot (q.apply s).mem (q.apply s).rd = readSlot s.mem s.rd := q.readSlot_memory s.mem hne
  simp only [execTxIterReady, ready_apply hwr, hslot]
  refine carries_guard fun _ => carries_withSlot hrd ⟨?_, trace_kick_perm _ _⟩
  simp only [State.emit, State.startProg, State.latchPacket, hslot]
  rfl

theorem carries_txIterEmpty (x : BitVec 2) (hwr : q.wr = s.wr) :
    Carries q (execTxIterEmpty x (q.apply s)) (execTxIterEmpty x s) := by
  simp only [execTxIterEmpty, ready_apply hwr]
  exact carries_guard fun _ => carries_next ⟨rfl, trace_kick_perm _ _⟩

theorem carries_txRunAdv (x : BitVec 2) : Carries q (execTxRunAdv x (q.apply s)) (execTxRunAdv x s) := by
  simp only [execTxRunAdv, RxEffect.apply_txPhase, RxEffect.apply_txProg]
  split
  · exact carries_next ⟨rfl, .refl _⟩
  · exact carries_noStep

theorem carries_txRunAdvread (x : BitVec 2) (h : s.Inv) (hne : s.wr ≠ s.rd) :
    Carries q (execTxRunAdvread x (q.apply s)) (execTxRunAdvread x s) := by
  have hrun : (q.apply s).runAdvread = q.apply s.runAdvread := by
    simp only [State.runAdvread, RxEffect.apply, q.clearSlot_memory h.mem_wf h.ranges.rd hne]
  simp only [execTxRunAdvread, RxEffect.apply_txPhase, RxEffect.apply_txProg, RxEffect.apply_rd, hrun]
  split
  · exact carries_withSlot h.ranges.rd ⟨rfl, .refl _⟩
  · exact carries_noStep

theorem carries_txRunEnd (x1 : BitVec 2) (x0 : BitVec 1) :
    Carries q (execTxRunEnd x1 x0 (q.apply s)) (execTxRunEnd x1 x0 s) := by
  simp only [execTxRunEnd, RxEffect.apply_txPhase, RxEffect.apply_txProg]
  split
  · exact carries_next ⟨rfl, .refl _⟩
  · exact carries_noStep

/-- The slots at the cursors differ, and only the ready test of an iteration reads the write cursor. -/
theorem exec_tx_carries {i : Instr} (hi : agentOf i = .tx) (h : s.Inv) (hne : s.wr ≠ s.rd)
    (hwr : beginsIteration i = false ∨ q.wr = s.wr) : Carries q (exec i (q.apply s)) (exec i s) := by
  cases i <;> cases hi
  case txIterHalted x => exact carries_guard fun _ => carries_next ⟨rfl, trace_kick_perm _ _⟩
  case txIterReady x => exact carries_txIterReady x h.ranges.rd hne (hwr.resolve_left nofun)
  case txIterEmpty x => exact carries_txIterEmpty x (hwr.resolve_left nofun)
  case txRunAdv x => exact carries_txRunAdv x
  case txRunAdvread x => exact carries_txRunAdvread x h hne
  case txRunEnd x1 x0 => exact carries_txRunEnd x1 x0
  case txWait x => exact carries_guard fun _ => carries_next ⟨rfl, .refl _⟩
  case txHalt x => exact carries_guard fun _ => carries_next ⟨rfl, .refl _⟩

end

/-- A control loop step leaves the receiver's effect as it is. -/
theorem exec_rx_after_tx {e i : Instr} {s b : State} (he : agentOf e = .rx) (hi : agentOf i = .tx)
    (hwr : slotExists s.wr = true) (hb : exec i s = .next b) :
    exec e b = .next ((rxEffect e s.rxOff s.rxOvf s.wr).apply b) := by
  obtain ⟨howns, -⟩ := exec_tx_owns s hi b hb
  have hoff : b.rxOff = s.rxOff := by rw [howns]
  have hovf : b.rxOvf = s.rxOvf := by rw [howns]
  have hcur : b.wr = s.wr := by rw [howns]
  rw [exec_rx he (hcur ▸ hwr), hoff, hovf, hcur]

/-- Settles O57: the receiver's effect is the same before and after the control loop's step, and the step is carried through
it. -/
theorem receiverAndControlLoopCommute : Obligations.ReceiverAndControlLoopCommute := by
  intro e i s t h hne he hi ht hcommit
  have hrx := exec_rx he h.ranges.wr
  obtain rfl : (rxEffect e s.rxOff s.rxOvf s.wr).apply s = t := by simpa [hrx] using ht
  obtain ⟨a, b, ha, hb, hsame, hperm⟩ := exec_tx_carries hi h hne hcommit
  refine ⟨a, _, ?_, ?_, hsame, hperm⟩
  · rw [runOps_cons hrx, runOps_cons ha, runOps_nil]
  · rw [runOps_cons hb, runOps_cons (exec_rx_after_tx he hi h.ranges.wr hb), runOps_nil]

end Sys2Proof.Machine
end

section
/-! 30_encoding.md R91 to R100: decoding an operation's word gives the operation back; and, on top of it, that the model's
`withFetchWord` runs the operation of a bare table word (log entry 3). -/

namespace Sys2Proof

/-! ### Decoding an operation's word -/

/-- A field's value is the operand, as soon as the numbers agree. -/
theorem field_eq {n lo w : Nat} {x : BitVec n} (h : w / 2 ^ lo % 2 ^ n = x.toNat) : field n lo w = x :=
  BitVec.eq_of_toNat_eq (by rw [field, BitVec.toNat_ofNat, h])

/-- With a preamble bit, the preamble and the start bit are at least the number `0b10`. -/
theorem two_le_framePreamble {nPre : Nat} (h : 1 ≤ nPre) : 2 ≤ framePreamble nPre := by
  have : 2 ^ 2 ≤ 2 ^ (nPre + 1) := Nat.pow_le_pow_right (by omega) (by omega)
  simp only [framePreamble]
  omega

/-! #### The frames -/

/-- The end of a frame word: the stop bit, the checksum byte, and above them the rest (R100). -/
theorem frameEnd_fields {w x : Nat} {k : Byte} (h : w = x * 512 + k.toNat * 2 + 1) :
    w % 2 = 1 ∧ field 8 1 w = k ∧ w / 2 ^ 9 = x := by
  have := k.isLt
  exact ⟨by omega, field_eq (by omega), by omega⟩

/-- A data group of a frame word: the separator, the byte, and above them the rest (R100). -/
theorem dataGroup_fields {m w x : Nat} {d : Byte} (h : w / 2 ^ m = x * 512 + d.toNat * 2) :
    w / 2 ^ m % 2 = 0 ∧ field 8 (m + 1) w = d ∧ w / 2 ^ (m + 9) = x := by
  have := d.isLt
  refine ⟨by omega, field_eq ?_, ?_⟩
  · rw [pow_succ, ← Nat.div_div_eq_div_mul]
    omega
  · rw [pow_add, ← Nat.div_div_eq_div_mul]
    omega

/-- A number in which a data group still stands below the preamble is greater than the preamble, so that the decoder does
not take the frame for a shorter one. -/
theorem preamble_lt_group {p y x n : Nat} (hp : 2 ≤ p) (hx : p ≤ x) (h : y = x * 512 + n) : p < y := by
  omega

theorem decodeFrame_word1 {nPre w : Nat} {a k : Byte} (h : w = frameWord nPre [a] k) :
    decodeFrame nPre w = .ok (.fbFrame1 a k) := by
  obtain ⟨stop, hk, h9⟩ := frameEnd_fields h
  obtain ⟨s9, ha, h18⟩ := dataGroup_fields h9
  simp only [Nat.reduceAdd] at ha h18
  simp only [decodeFrame, stop, s9, hk, ha, h18, and_self, if_true]

theorem decodeFrame_word2 {nPre w : Nat} (hp : 2 ≤ framePreamble nPre) {a b k : Byte}
    (h : w = frameWord nPre [a, b] k) : decodeFrame nPre w = .ok (.fbFrame2 a b k) := by
  obtain ⟨stop, hk, h9⟩ := frameEnd_fields h
  obtain ⟨s9, hb, h18⟩ := dataGroup_fields h9
  obtain ⟨s18, ha, h27⟩ := dataGroup_fields h18
  have lt18 := preamble_lt_group hp le_rfl h18
  simp only [Nat.reduceAdd] at s18 ha hb h27 lt18
  simp only [decodeFrame, stop, s9, s18, hk, ha, hb, h27, lt18.ne', and_self, if_true, if_false]

theorem decodeFrame_word3 {nPre w : Nat} (hp : 2 ≤ framePreamble nPre) {a b c k : Byte}
    (h : w = frameWord nPre [a, b, c] k) : decodeFrame nPre w = .ok (.fbFrame3 a b c k) := by
  obtain ⟨stop, hk, h9⟩ := frameEnd_fields h
  obtain ⟨s9, hc, h18⟩ := dataGroup_fields h9
  obtain ⟨s18, hb, h27⟩ := dataGroup_fields h18
  obtain ⟨s27, ha, h36⟩ := dataGroup_fields h27
  have lt27 := preamble_lt_group hp le_rfl h27
  have lt18 := preamble_lt_group hp (lt27.le.trans_eq h27) h18
  simp only [Nat.reduceAdd] at s18 s27 ha hb hc h36 lt18 lt27
  simp only [decodeFrame, stop, s9, s18, s27, hk, ha, hb, hc, h36, lt18.ne', lt27.ne', and_self, if_true, if_false]

theorem decodeFrame_word4 {nPre w : Nat} (hp : 2 ≤ framePreamble nPre) {a b c d k : Byte}
    (h : w = frameWord nPre [a, b, c, d] k) : decodeFrame nPre w = .ok (.fbFrame4 a b c d k) := by
  obtain ⟨stop, hk, h9⟩ := frameEnd_fields h
  obtain ⟨s9, hd, h18⟩ := dataGroup_fields h9
  obtain ⟨s18, hc, h27⟩ := dataGroup_fields h18
  obtain ⟨s27, hb, h36⟩ := dataGroup_fields h27
  obtain ⟨s36, ha, h45⟩ := dataGroup_fields h36
  have lt36 := preamble_lt_group hp le_rfl h36
  have lt27 := preamble_lt_group hp (lt36.le.trans_eq h36) h27
  have lt18 := preamble_lt_group hp (lt27.le.trans_eq h27) h18
  simp only [Nat.reduceAdd] at s18 s27 s36 ha hb hc hd h45 lt18 lt27 lt36
  simp only [decodeFrame, stop, s9, s18, s27, s36, hk, ha, hb, hc, hd, h45, lt18.ne', lt27.ne', lt36.ne', and_self,
    if_true, if_false]

/-! #### The other formats -/

theorem decodeCommitw_word {u : Usage} {d c b a : Byte} {w : Nat}
    (h : w = u.toNat * 2 ^ 32 + d.toNat * 2 ^ 24 + c.toNat * 2 ^ 16 + b.toNat * 2 ^ 8 + a.toNat) :
    decodeCommitw w = .ok (.ringCommit u d c b a) := by
  have := u.isLt
  have := d.isLt
  have := c.isLt
  have := b.isLt
  have := a.isLt
  unfold decodeCommitw
  rw [if_pos (by omega), field_eq (x := u) (by omega), field_eq (x := d) (by omega), field_eq (x := c) (by omega),
    field_eq (x := b) (by omega), field_eq (x := a) (by omega)]

theorem decodeQres_word (v : Bool) (i : Cursor) : decodeQres (v.toNat * 64 + i.toNat) = .ok (.ringTrynext v i) := by
  have := i.isLt
  have := v.toNat_lt
  have hv : (v.toNat * 64 + i.toNat) / 64 = v.toNat := by omega
  rw [decodeQres, if_pos (by omega), field_eq (x := i) (by omega), hv]
  cases v <;> rfl

theorem decodeUop_word (x : BitVec 16) :
    decodeUop x.toNat = .ok (.uopAdv x) ∧ decodeUop (65536 + x.toNat) = .ok (.uopAdvread x) := by
  have := x.isLt
  unfold decodeUop
  constructor
  · rw [if_pos (by omega), field_eq (x := x) (by omega)]
  · rw [if_neg (by omega), if_pos (by omega), field_eq (x := x) (by omega)]

theorem decodeDur_word (d : Ticks) : decodeDur d.toNat = .ok (.wsAdv d) := by
  have := d.isLt
  rw [decodeDur, if_pos (by omega), field_eq (x := d) (by omega)]

theorem decodeBusEvt_word (x : Byte) :
    decodeBusEvt x.toNat = .ok (.rxAddr x) ∧ decodeBusEvt (256 + x.toNat) = .ok (.rxData x)
    ∧ decodeBusEvt (512 + x.toNat) = .ok (.rxStop x) ∧ decodeBusEvt (768 + x.toNat) = .ok (.rxRsvd x) := by
  have := x.isLt
  unfold decodeBusEvt
  refine ⟨?_, ?_, ?_, ?_⟩
  · rw [if_pos (by omega), field_eq (x := x) (by omega)]
  · rw [if_neg (by omega), if_pos (by omega), field_eq (x := x) (by omega)]
  · rw [if_neg (by omega), if_neg (by omega), if_pos (by omega), field_eq (x := x) (by omega)]
  · rw [if_neg (by omega), if_neg (by omega), if_neg (by omega), if_pos (by omega), field_eq (x := x) (by omega)]

theorem decodeLevel_word (e : Bool) : decodeLevel e.toNat = .ok (.envEnable e) := by
  cases e <;> rfl

/-- The words of the eight patterns of R98 are 64 in all. -/
theorem decodeTxsel_word :
    (∀ x : BitVec 3, decodeTxsel x.toNat = .ok (.txIterHalted x))
    ∧ (∀ x : BitVec 2, decodeTxsel (12 + x.toNat) = .ok (.txIterReady x))
    ∧ (∀ x : BitVec 2, decodeTxsel (8 + x.toNat) = .ok (.txIterEmpty x))
    ∧ (∀ x : BitVec 2, decodeTxsel (16 + x.toNat * 4 + 2) = .ok (.txRunAdv x))
    ∧ (∀ x : BitVec 2, decodeTxsel (16 + x.toNat * 4 + 3) = .ok (.txRunAdvread x))
    ∧ (∀ (x1 : BitVec 2) (x0 : BitVec 1), decodeTxsel (16 + x1.toNat * 4 + x0.toNat) = .ok (.txRunEnd x1 x0))
    ∧ (∀ x : BitVec 4, decodeTxsel (32 + x.toNat) = .ok (.txWait x))
    ∧ (∀ x : BitVec 4, decodeTxsel (48 + x.toNat) = .ok (.txHalt x)) := by
  refine ⟨?_, ?_, ?_, ?_, ?_, ?_, ?_, ?_⟩ <;> decide

/-- 30_encoding.md R91 to R100: in a build with a preamble bit, an operation's word decodes to the operation. -/
theorem decode_encode {nPre : Nat} (hp : 1 ≤ nPre) (i : Instr) : decode nPre (encode nPre i) = .ok i := by
  have hp := two_le_framePreamble hp
  obtain ⟨halted, ready, empty, adv, advread, runEnd, wait, halt⟩ := decodeTxsel_word
  cases i with
  | wsTick | wsWait | ringAdvread | envReset => rfl
  | beZero | beOne | bePause | symRsvd => rfl
  | wsAdv d => exact decodeDur_word d
  | fbFrame1 a k => exact decodeFrame_word1 rfl
  | fbFrame2 a b k => exact decodeFrame_word2 hp rfl
  | fbFrame3 a b c k => exact decodeFrame_word3 hp rfl
  | fbFrame4 a b c d k => exact decodeFrame_word4 hp rfl
  | ringTrynext v i => exact decodeQres_word v i
  | ringCommit u d c b a => exact decodeCommitw_word rfl
  | rxAddr x =>
    obtain ⟨addr, -, -, -⟩ := decodeBusEvt_word x
    exact addr
  | rxData x =>
    obtain ⟨-, data, -, -⟩ := decodeBusEvt_word x
    exact data
  | rxStop x =>
    obtain ⟨-, -, stop, -⟩ := decodeBusEvt_word x
    exact stop
  | rxRsvd x =>
    obtain ⟨-, -, -, rsvd⟩ := decodeBusEvt_word x
    exact rsvd
  | txIterHalted x => exact halted x
  | txIterReady x => exact ready x
  | txIterEmpty x => exact empty x
  | txRunAdv x => exact adv x
  | txRunAdvread x => exact advread x
  | txRunEnd x1 x0 => exact runEnd x1 x0
  | txWait x => exact wait x
  | txHalt x => exact halt x
  | envEnable e => exact decodeLevel_word e
  | uopAdv d => exact (decodeUop_word d).1
  | uopAdvread x => exact (decodeUop_word x).2

namespace Machine

/-! ### The state that selects an operation -/

@[simp] theorem State.selecting_cfg (s : State) (i : Instr) : (s.selecting i).cfg = s.cfg := by
  cases i <;> rfl

/-- 10_state.md R32 lets the sequencer, the flag, the level and the write cursor be set, each within its own row. -/
theorem State.Ranges.setControl {s : State} (h : s.Ranges) (ph : Phase) (prog : List UOp) (mf enable : Bool) (wr : Cursor)
    (hprog : ph = .iter ∨ ph = .halt → prog = []) (hwr : slotExists wr = true) :
    State.Ranges { s with txPhase := ph, txProg := prog, txHleft := 0, mf := mf, enable := enable, wr := wr } :=
  ⟨hwr, h.rd, h.off, h.ovf, hprog, fun _ => rfl⟩

theorem State.Ranges.selecting {s : State} (h : s.Ranges) (i : Instr) : (s.selecting i).Ranges := by
  cases i with
  | txIterHalted x => exact h.setControl .iter [] s.mf false s.wr (fun _ => rfl) h.wr
  | txIterReady x =>
    have hwr : slotExists (if s.rd = s.wr then incCap s.rd else s.wr) = true := by
      split
      · exact slotExists_incCap _
      · exact h.wr
    exact h.setControl .iter [] s.mf true _ (fun _ => rfl) hwr
  | txIterEmpty x => exact h.setControl .iter [] s.mf true s.rd (fun _ => rfl) h.rd
  | txRunAdv x => exact h.setControl .run (.adv 0 :: s.txProg) s.mf s.enable s.wr nofun h.wr
  | txRunAdvread x | uopAdvread x => exact h.setControl .run (.advread :: s.txProg) s.mf s.enable s.wr nofun h.wr
  | txRunEnd x1 x0 => exact h.setControl .run [] s.mf s.enable s.wr nofun h.wr
  | txWait x => exact h.setControl .wait s.txProg true s.enable s.wr nofun h.wr
  | txHalt x => exact h.setControl .halt [] s.mf s.enable s.wr (fun _ => rfl) h.wr
  | uopAdv d => exact h.setControl .run (.adv d :: s.txProg) s.mf s.enable s.wr nofun h.wr
  | wsWait => exact ⟨h.wr, h.rd, h.off, h.ovf, h.prog, h.hleft⟩
  | wsTick | wsAdv | beZero | beOne | bePause | symRsvd => exact h
  | fbFrame1 | fbFrame2 | fbFrame3 | fbFrame4 => exact h
  | ringTrynext | ringAdvread | ringCommit => exact h
  | rxAddr | rxData | rxStop | rxRsvd | envEnable | envReset => exact h

/-- TXSEL as a word of its own five fields (30_encoding.md R98). -/
def txselOf (ph : Phase) (enable ready nonempty advread : Bool) : BitVec 6 :=
  BitVec.ofNat 6 (ph.code * 16 + enable.toNat * 8 + ready.toNat * 4 + nonempty.toNat * 2 + advread.toNat)

theorem txselWord_eq (s : State) : txselWord s = txselOf s.txPhase s.enable s.ready s.nonempty s.headAdvread := rfl

/-- The fields of TXSEL a pattern of R98 fixes select it, whatever the others are. -/
theorem txselOf_patterns : ∀ e r n a : Bool,
    txselOf .iter false r n a &&& 0b111000 = 0b000000
    ∧ txselOf .iter true true n a &&& 0b111100 = 0b001100
    ∧ txselOf .iter true false n a &&& 0b111100 = 0b001000
    ∧ txselOf .run e r true false &&& 0b110011 = 0b010010
    ∧ txselOf .run e r true true &&& 0b110011 = 0b010011
    ∧ txselOf .run e r false a &&& 0b110010 = 0b010000
    ∧ txselOf .wait e r n a &&& 0b110000 = 0b100000
    ∧ txselOf .halt e r n a &&& 0b110000 = 0b110000 := by
  decide

/-- A cursor's advance is another cursor. -/
theorem incCap_ne (c : Cursor) : incCap c ≠ c := by
  intro h
  have := incCap_toNat c
  rw [h] at this
  omega

/-- Where the cursors meet, the write cursor is moved on, so that a packet is there to be found. -/
theorem ready_selecting_txIterReady (s : State) (x : BitVec 2) : (s.selecting (.txIterReady x)).ready = true := by
  simp only [State.ready, State.selecting, bne_iff_ne]
  split
  case isTrue => exact (incCap_ne _).symm
  case isFalse h => exact h

theorem ready_selecting_txIterEmpty (s : State) (x : BitVec 2) : (s.selecting (.txIterEmpty x)).ready = false := by
  simp [State.ready, State.selecting]

/-- 30_encoding.md R98: the state made to select a control loop step has the TXSEL word of the step's pattern. -/
theorem selectedByTxsel_selecting {i : Instr} (s : State) (hi : agentOf i = .tx) :
    selectedByTxsel i (s.selecting i) = true := by
  obtain ⟨halted, ready, empty, adv, advread, runEnd, wait, halt⟩ :=
    txselOf_patterns s.enable s.ready (s.selecting i).nonempty (s.selecting i).headAdvread
  cases i <;> cases hi
  case txIterHalted x => exact beq_iff_eq.mpr halted
  case txIterReady x =>
    simp only [selectedByTxsel, txselPattern, txselWord_eq, ready_selecting_txIterReady]
    exact beq_iff_eq.mpr ready
  case txIterEmpty x =>
    simp only [selectedByTxsel, txselPattern, txselWord_eq, ready_selecting_txIterEmpty]
    exact beq_iff_eq.mpr empty
  case txRunAdv x => exact beq_iff_eq.mpr adv
  case txRunAdvread x => exact beq_iff_eq.mpr advread
  case txRunEnd x1 x0 => exact beq_iff_eq.mpr runEnd
  case txWait x => exact beq_iff_eq.mpr wait
  case txHalt x => exact beq_iff_eq.mpr halt

/-- A move put first is the next one, and the state without it is the one it was put before. -/
theorem nextMove_present (s : State) (m : Move) : nextMove (s.present m) = (m, s) := rfl

theorem step_present_word {s : State} {pw : PortWord} {i : Instr} (hr : s.inRange = true)
    (hd : decode s.cfg.nPre pw = .ok i) : step (s.present (.word pw)) = exec i s :=
  step_of_decode (s := s.present (.word pw)) hr hd

/-- Settles O13: the word of the operation decodes to it in this build too, and the state made to select it is in range. -/
theorem tableWordRunsItsOperation : Obligations.TableWordRunsItsOperation := by
  intro s nbits w i hr hp hi
  have hr' : (s.selecting i).inRange = true := ((State.ranges_of_inRange hr).selecting i).inRange
  have hword : s.withFetchWord nbits w = (s.selecting i).present (.word (encode s.cfg.nPre i)) := by
    simp only [State.withFetchWord, State.withTableWord, hi]
  refine ⟨?_, selectedByTxsel_selecting s⟩
  rw [hword]
  exact step_present_word hr' (by rw [State.selecting_cfg, decode_encode hp])

end Machine

end Sys2Proof
end

section
/-! 30_encoding.md R91 to R100, the converse of `decode_encode`: a word that decodes is the word of the operation it decodes
to. One lemma per format, then the decoder of all ports. -/

namespace Sys2Proof

/-- A field's value is its bits of the word, as a number. -/
@[simp] theorem field_toNat (n lo w : Nat) : (field n lo w).toNat = w / 2 ^ lo % 2 ^ n := BitVec.toNat_ofNat _ _

/-! ### The frames -/

/-- Below a stop bit stand the checksum byte and the rest: the converse of `frameEnd_fields`. -/
theorem frameEnd_of_fields {w : Nat} (stop : w % 2 = 1) : w = w / 2 ^ 9 * 512 + (field 8 1 w).toNat * 2 + 1 := by
  rw [field_toNat]
  omega

/-- Above a separator stand the data byte and the rest: the converse of `dataGroup_fields`. -/
theorem dataGroup_of_fields {m w : Nat} (sep : w / 2 ^ m % 2 = 0) :
    w / 2 ^ m = w / 2 ^ (m + 9) * 512 + (field 8 (m + 1) w).toNat * 2 := by
  rw [field_toNat, pow_succ 2 m, pow_add 2 m 9, ← Nat.div_div_eq_div_mul, ← Nat.div_div_eq_div_mul]
  omega

/-- A stop bit, a separator after the last data byte, and what is in between: the end that every frame has. -/
theorem frameTail_of_fields {w : Nat} (stop : w % 2 = 1) (s9 : w / 2 ^ 9 % 2 = 0) :
    w = (w / 2 ^ 18 * 512 + (field 8 10 w).toNat * 2) * 512 + (field 8 1 w).toNat * 2 + 1 := by
  rw [← dataGroup_of_fields s9]
  exact frameEnd_of_fields stop

/-- R100: read from its last bit, the word is built up of the groups that the decoder has found in it. -/
theorem encode_of_decodeFrame {nPre w : Nat} {i : Instr} (h : decodeFrame nPre w = .ok i) :
    encode nPre i = ⟨.frame, w⟩ := by
  unfold decodeFrame at h
  split_ifs at h with hend h18 s18 h27 s27 h36 h45
  all_goals
    cases h
    obtain ⟨stop, s9⟩ := hend
    have tail := frameTail_of_fields stop s9
    refine congrArg (PortWord.mk .frame) ?_
    simp only [frameWord, List.foldl]
  · rw [← h18, ← tail]
  · rw [← h27, ← dataGroup_of_fields s18, ← tail]
  · rw [← h36, ← dataGroup_of_fields s27, ← dataGroup_of_fields s18, ← tail]
  · obtain ⟨s36, h45⟩ := h45
    rw [← h45, ← dataGroup_of_fields s36, ← dataGroup_of_fields s27, ← dataGroup_of_fields s18, ← tail]

/-! ### The other formats -/

/-- R99: the only word of a strobe is 1. -/
theorem decodeStrobe_eq_ok {p : Port} {i j : Instr} {w : Nat} : decodeStrobe p i w = .ok j ↔ w = 1 ∧ i = j := by
  unfold decodeStrobe
  split_ifs with h1 <;> simp [h1]

section
variable (nPre : Nat) {w : Nat} {i : Instr}

theorem encode_of_decodeLevel (h : decodeLevel w = .ok i) : encode nPre i = ⟨.enable, w⟩ := by
  unfold decodeLevel at h
  split_ifs at h
  all_goals
    cases h
    subst w
    rfl

theorem encode_of_decodeSym (h : decodeSym w = .ok i) : encode nPre i = ⟨.sym, w⟩ := by
  unfold decodeSym at h
  split_ifs at h
  all_goals
    cases h
    subst w
    rfl

theorem encode_of_decodeBusEvt (h : decodeBusEvt w = .ok i) : encode nPre i = ⟨.busEvt, w⟩ := by
  unfold decodeBusEvt at h
  split_ifs at h
  all_goals
    cases h
    refine congrArg (PortWord.mk .busEvt) ?_
    rw [field_toNat]
    omega

theorem encode_of_decodeDur (h : decodeDur w = .ok i) : encode nPre i = ⟨.dur, w⟩ := by
  unfold decodeDur at h
  split_ifs at h
  cases h
  refine congrArg (PortWord.mk .dur) ?_
  rw [field_toNat]
  omega

theorem encode_of_decodeQres (h : decodeQres w = .ok i) : encode nPre i = ⟨.qres, w⟩ := by
  unfold decodeQres at h
  split_ifs at h
  cases h
  refine congrArg (PortWord.mk .qres) ?_
  have valid : (decide (w / 64 = 1)).toNat = w / 64 := by
    by_cases hv : w / 64 = 1
    · simp [hv]
    · simp only [hv, decide_false, Bool.toNat_false]
      omega
  rw [field_toNat, valid]
  omega

theorem encode_of_decodeCommitw (h : decodeCommitw w = .ok i) : encode nPre i = ⟨.commitw, w⟩ := by
  unfold decodeCommitw at h
  split_ifs at h
  cases h
  refine congrArg (PortWord.mk .commitw) ?_
  simp only [field_toNat]
  omega

theorem encode_of_decodeTxsel (h : decodeTxsel w = .ok i) : encode nPre i = ⟨.txsel, w⟩ := by
  unfold decodeTxsel at h
  split_ifs at h
  all_goals
    cases h
    refine congrArg (PortWord.mk .txsel) ?_
    simp only [field_toNat]
    omega

theorem encode_of_decodeUop (h : decodeUop w = .ok i) : encode nPre i = ⟨.uop, w⟩ := by
  unfold decodeUop at h
  split_ifs at h
  all_goals
    cases h
    refine congrArg (PortWord.mk .uop) ?_
    rw [field_toNat]
    omega

end

/-- 30_encoding.md R91 to R100: a word that decodes is the word of its operation, on every port and in every build. -/
theorem encode_of_decode {nPre : Nat} {pw : PortWord} {i : Instr} (h : decode nPre pw = .ok i) : encode nPre i = pw := by
  obtain ⟨port, w⟩ := pw
  cases port with
  | tick | rst | flag | ringAdvread =>
    obtain ⟨rfl, rfl⟩ := decodeStrobe_eq_ok.mp h
    rfl
  | enable => exact encode_of_decodeLevel nPre h
  | busEvt => exact encode_of_decodeBusEvt nPre h
  | dur => exact encode_of_decodeDur nPre h
  | sym => exact encode_of_decodeSym nPre h
  | frame => exact encode_of_decodeFrame h
  | qres => exact encode_of_decodeQres nPre h
  | commitw => exact encode_of_decodeCommitw nPre h
  | txsel => exact encode_of_decodeTxsel nPre h
  | uop => exact encode_of_decodeUop nPre h

/-- Settles O1, by `decode_encode`. -/
theorem decodeOfEncodeIsTheOperation : Obligations.DecodeOfEncodeIsTheOperation := fun _ i hp => decode_encode hp i

/-- Settles O2, by `encode_of_decode`. -/
theorem encodeOfDecodeIsTheWord : Obligations.EncodeOfDecodeIsTheWord := fun _ _ _ => encode_of_decode

/-- Settles O3: each word is the operation's by evaluation. -/
theorem wordsOfTheSpecDecode : Obligations.WordsOfTheSpecDecode :=
  ⟨rfl, rfl, rfl, rfl, rfl, rfl, rfl, rfl, rfl, rfl, rfl⟩

end Sys2Proof
end

section
/-! 30_encoding.md R100 and 42_frame_encoder.md R152 to R156: the frame bit by bit, by the position in it, and as the number
that the FRAME word is. -/

namespace Sys2Proof.Machine

/-! ### Which bit stands where -/

@[simp] theorem byteBits_length (v : Byte) : (byteBits v).length = 8 := rfl

/-- R102 (c): a byte goes out most significant bit first. -/
theorem byteBits_getElem? (v : Byte) {n : Nat} (h : n < 8) : (byteBits v)[n]? = some (v.getLsbD (7 - n)) := by
  interval_cases n <;> rfl

@[simp] theorem dataGroup_length (v : Byte) : (dataGroup v).length = 9 := rfl

theorem dataGroups_length (ds : List Byte) : (ds.flatMap dataGroup).length = 9 * ds.length := by
  induction ds with
  | nil => rfl
  | cons d ds ih =>
    rw [List.flatMap_cons, List.length_append, ih, dataGroup_length, List.length_cons]
    omega

/-- R154: the group of data byte j takes nine places, from 9 j on. -/
theorem dataGroups_getElem? {ds : List Byte} {j n : Nat} {d : Byte} (hd : ds[j]? = some d) (hn : n < 9) :
    (ds.flatMap dataGroup)[9 * j + n]? = (dataGroup d)[n]? := by
  induction ds generalizing j with
  | nil => cases hd
  | cons e ds ih =>
    rw [List.flatMap_cons]
    cases j with
    | zero =>
      cases hd
      rw [Nat.mul_zero, Nat.zero_add, List.getElem?_append_left (by simpa using hn)]
    | succ j =>
      rw [List.getElem?_append_right (by rw [dataGroup_length]; omega), dataGroup_length,
        show 9 * (j + 1) + n - 9 = 9 * j + n by omega]
      exact ih hd

section
variable (nPre : Nat) (ds : List Byte) (k : Byte)

/-- What follows the start bit: the data groups, the checksum byte and the stop bit. -/
def frameBody : List Bool := ds.flatMap dataGroup ++ (byteBits k ++ [true])

theorem frameBits_eq : frameBits nPre ds k = List.replicate nPre true ++ false :: frameBody ds k := by
  simp [frameBits, frameBody]

theorem frameBits_length : (frameBits nPre ds k).length = nPre + 10 + 9 * ds.length := by
  simp only [frameBits_eq, frameBody, List.length_append, List.length_replicate, List.length_cons, dataGroups_length,
    byteBits_length, List.length_nil]
  omega

/-- R152: the preamble. -/
theorem frameBits_getElem?_preamble {p : Nat} (h : p < nPre) : (frameBits nPre ds k)[p]? = some true := by
  rw [frameBits_eq, List.getElem?_append_left (by simpa using h), List.getElem?_replicate_of_lt h]

/-- R153: the start bit. -/
theorem frameBits_getElem?_start : (frameBits nPre ds k)[nPre]? = some false := by
  rw [frameBits_eq, List.getElem?_append_right (by simp)]
  simp

theorem frameBits_getElem?_body (q : Nat) : (frameBits nPre ds k)[nPre + 1 + q]? = (frameBody ds k)[q]? := by
  rw [frameBits_eq, List.getElem?_append_right (by rw [List.length_replicate]; omega), List.length_replicate,
    show nPre + 1 + q - nPre = q + 1 by omega, List.getElem?_cons_succ]

/-- R154: the nine bits of data byte j. -/
theorem frameBits_getElem?_group {j n : Nat} {d : Byte} (hd : ds[j]? = some d) (hn : n < 9) :
    (frameBits nPre ds k)[nPre + 1 + 9 * j + n]? = (dataGroup d)[n]? := by
  obtain ⟨hj, -⟩ := List.getElem?_eq_some_iff.mp hd
  have hlt : 9 * j + n < (ds.flatMap dataGroup).length := by
    rw [dataGroups_length]
    omega
  rw [Nat.add_assoc, frameBits_getElem?_body, frameBody, List.getElem?_append_left hlt, dataGroups_getElem? hd hn]

/-- R155: the checksum byte and the stop bit. -/
theorem frameBits_getElem?_end (n : Nat) :
    (frameBits nPre ds k)[nPre + 1 + 9 * ds.length + n]? = (byteBits k ++ [true])[n]? := by
  rw [Nat.add_assoc, frameBits_getElem?_body, frameBody, ← dataGroups_length, List.getElem?_append_right (by omega),
    Nat.add_sub_cancel_left]

end

/-- Settles O5: one lemma per row of the frame format, at the positions it gives. -/
theorem frameBitsStandAtTheirPositions : Obligations.FrameBitsStandAtTheirPositions := by
  intro nPre ds k
  refine ⟨frameBits_length nPre ds k, fun p hp => frameBits_getElem?_preamble nPre ds k hp,
    frameBits_getElem?_start nPre ds k, fun j d n hd hn => ?data, fun j hj => ?separator, fun n hn => ?checksum, ?stop⟩
  case data =>
    rw [frameBits_getElem?_group nPre ds k hd (by omega), dataGroup, List.getElem?_append_left (by simpa using hn)]
    exact byteBits_getElem? d hn
  case separator =>
    rw [show nPre + 9 + 9 * j = nPre + 1 + 9 * j + 8 by omega]
    exact frameBits_getElem?_group nPre ds k (List.getElem?_eq_getElem hj) (by decide)
  case checksum =>
    rw [frameBits_getElem?_end, List.getElem?_append_left (by simpa using hn)]
    exact byteBits_getElem? k hn
  case stop =>
    rw [show nPre + 9 + 9 * ds.length = nPre + 1 + 9 * ds.length + 8 by omega]
    exact frameBits_getElem?_end nPre ds k 8

/-! ### The frame as a number -/

/-- The number whose bits are those of `acc` and, below them, the bits of the list, the first one the highest. -/
def shiftIn (acc : Nat) (bits : List Bool) : Nat := bits.foldl (fun n v => 2 * n + v.toNat) acc

@[simp] theorem shiftIn_nil (acc : Nat) : shiftIn acc [] = acc := rfl

@[simp] theorem shiftIn_cons (acc : Nat) (v : Bool) (bits : List Bool) :
    shiftIn acc (v :: bits) = shiftIn (2 * acc + v.toNat) bits := rfl

@[simp] theorem shiftIn_append (acc : Nat) (bits bits' : List Bool) :
    shiftIn acc (bits ++ bits') = shiftIn (shiftIn acc bits) bits' := List.foldl_append

theorem shiftIn_div (acc : Nat) (bits : List Bool) : shiftIn acc bits / 2 ^ bits.length = acc := by
  induction bits generalizing acc with
  | nil => simp
  | cons v bits ih =>
    have := v.toNat_lt
    rw [shiftIn_cons, List.length_cons, pow_succ, ← Nat.div_div_eq_div_mul, ih]
    omega

/-- Read from the leftmost of the bits shifted in, the number is the list of bits. -/
theorem getElem?_eq_testBit_shiftIn (acc : Nat) {bits : List Bool} {p : Nat} (h : p < bits.length) :
    bits[p]? = some ((shiftIn acc bits).testBit (bits.length - 1 - p)) := by
  induction bits generalizing acc p with
  | nil => cases h
  | cons v bits ih =>
    rw [shiftIn_cons, List.length_cons, Nat.add_sub_cancel]
    cases p with
    | zero =>
      rw [Nat.sub_zero, ← Nat.zero_add bits.length, ← Nat.testBit_div_two_pow, shiftIn_div]
      cases v <;> simp
    | succ p =>
      rw [List.length_cons] at h
      rw [List.getElem?_cons_succ, ih (2 * acc + v.toNat) (by omega),
        show bits.length - 1 - p = bits.length - (p + 1) by omega]

/-- The preamble's ones. -/
theorem shiftIn_replicate_true (n : Nat) : shiftIn 0 (List.replicate n true) = 2 ^ n - 1 := by
  induction n with
  | zero => rfl
  | succ n ih =>
    have := Nat.two_pow_pos n
    rw [List.replicate_succ', shiftIn_append, ih, shiftIn_cons, shiftIn_nil, Bool.toNat_true, pow_succ]
    omega

theorem shiftIn_byteBits (acc : Nat) (v : Byte) : shiftIn acc (byteBits v) = acc * 256 + v.toNat := by
  have := v.isLt
  simp only [byteBits, shiftIn_cons, shiftIn_nil, BitVec.getLsbD, Nat.toNat_testBit]
  omega

theorem shiftIn_dataGroup (acc : Nat) (v : Byte) : shiftIn acc (dataGroup v) = acc * 512 + v.toNat * 2 := by
  rw [dataGroup, shiftIn_append, shiftIn_byteBits, shiftIn_cons, shiftIn_nil, Bool.toNat_false]
  omega

theorem shiftIn_dataGroups (acc : Nat) (ds : List Byte) :
    shiftIn acc (ds.flatMap dataGroup) = ds.foldl (fun n d => n * 512 + d.toNat * 2) acc := by
  induction ds generalizing acc with
  | nil => rfl
  | cons d ds ih => rw [List.flatMap_cons, shiftIn_append, shiftIn_dataGroup, ih, List.foldl_cons]

/-- 42_frame_encoder.md R156: the FRAME word is the number that the bits of the frame make. -/
theorem frameWord_eq_shiftIn (nPre : Nat) (ds : List Byte) (k : Byte) :
    frameWord nPre ds k = shiftIn 0 (frameBits nPre ds k) := by
  have start : 2 * (2 ^ nPre - 1) + 0 = framePreamble nPre := by
    have := Nat.two_pow_pos nPre
    rw [framePreamble, pow_succ]
    omega
  rw [frameBits_eq, frameBody, shiftIn_append, shiftIn_replicate_true, shiftIn_cons, Bool.toNat_false, start, shiftIn_append,
    shiftIn_dataGroups, shiftIn_append, shiftIn_byteBits, shiftIn_cons, shiftIn_nil, Bool.toNat_true, frameWord]
  omega

/-- Settles O6: the FRAME word is the bits shifted in, and those are read back from the left. -/
theorem frameWordIsTheFrameInTime : Obligations.FrameWordIsTheFrameInTime := by
  intro nPre ds k p hp
  have hlen := frameBits_length nPre ds k
  rw [frameWord_eq_shiftIn, getElem?_eq_testBit_shiftIn 0 (by omega), hlen,
    show nPre + 10 + 9 * ds.length - 1 - p = nPre + 9 + 9 * ds.length - p by omega]

end Sys2Proof.Machine
end

section
/-! 30_encoding.md R98: the eight patterns of TXSEL cover every word and do not overlap, so the control loop's move runs the
one step they select; and the steps they do not select are not taken. -/

namespace Sys2Proof.Machine

/-! ### The patterns -/

/-- A TXSEL word matches the pattern of an operation. -/
def matchesTxsel (w : BitVec 6) (i : Instr) : Bool := (txselPattern i).any fun p => w &&& p.1 == p.2

theorem matchesTxsel_iff {w : BitVec 6} {i : Instr} :
    matchesTxsel w i = true ↔ ∃ p, txselPattern i = some p ∧ w &&& p.1 = p.2 := by
  simp [matchesTxsel, Option.any_eq_true]

theorem selectedByTxsel_eq (i : Instr) (s : State) : selectedByTxsel i s = matchesTxsel (txselWord s) i := by
  unfold selectedByTxsel matchesTxsel
  cases txselPattern i <;> rfl

/-- R98: "The eight patterns". -/
def txselPatterns : List (BitVec 6 × BitVec 6) :=
  [(0b111000, 0b000000), (0b111100, 0b001100), (0b111100, 0b001000), (0b110011, 0b010010), (0b110011, 0b010011),
    (0b110010, 0b010000), (0b110000, 0b100000), (0b110000, 0b110000)]

theorem txselPattern_mem {i : Instr} {p : BitVec 6 × BitVec 6} (h : txselPattern i = some p) : p ∈ txselPatterns := by
  cases i <;> cases h <;> decide

/-- R98: "no two overlap". On the bits that both fix, any two of the eight patterns differ. -/
theorem txselPatterns_pairwise : txselPatterns.Pairwise fun p q => p.2 &&& q.1 ≠ q.2 &&& p.1 := by
  decide

theorem txselPatterns_disjoint {w : BitVec 6} {p q : BitVec 6 × BitVec 6} (hp : p ∈ txselPatterns) (hq : q ∈ txselPatterns)
    (hwp : w &&& p.1 = p.2) (hwq : w &&& q.1 = q.2) : p = q := by
  have agree : p.2 &&& q.1 = q.2 &&& p.1 := by
    rw [← hwp, ← hwq, BitVec.and_assoc, BitVec.and_assoc, BitVec.and_comm p.1]
  have : Std.Symm fun p q : BitVec 6 × BitVec 6 => p.2 &&& q.1 ≠ q.2 &&& p.1 := ⟨fun _ _ h => h.symm⟩
  by_contra hne
  exact txselPatterns_pairwise.forall hp hq hne agree

theorem txselPattern_unique {w : BitVec 6} {i j : Instr} (hi : matchesTxsel w i = true) (hj : matchesTxsel w j = true) :
    txselPattern j = txselPattern i := by
  obtain ⟨p, hp, hwp⟩ := matchesTxsel_iff.mp hi
  obtain ⟨q, hq, hwq⟩ := matchesTxsel_iff.mp hj
  rw [hp, hq, txselPatterns_disjoint (txselPattern_mem hp) (txselPattern_mem hq) hwp hwq]

/-- R98: the word of a control loop step matches the step's pattern, whatever its operand. -/
theorem matchesTxsel_encode {i : Instr} (hi : agentOf i = .tx) :
    matchesTxsel (BitVec.ofNat 6 (encode 13 i).bits) i = true := by
  cases i <;> cases hi
  case txIterHalted x => revert x; decide
  case txIterReady x => revert x; decide
  case txIterEmpty x => revert x; decide
  case txRunAdv x => revert x; decide
  case txRunAdvread x => revert x; decide
  case txRunEnd x1 x0 => revert x1 x0; decide
  case txWait x => revert x; decide
  case txHalt x => revert x; decide

/-- R98: "The eight patterns cover all 64 values of the word", and the decoder selects the step whose pattern the word
matches: the word is the step's own, by `encode_of_decodeTxsel`. -/
theorem decodeTxsel_matches (w : BitVec 6) :
    ∃ i, decodeTxsel w.toNat = .ok i ∧ agentOf i = .tx ∧ matchesTxsel w i = true := by
  obtain ⟨i, hd, hi⟩ := decodeTxsel_selects_tx w.isLt
  have hm := matchesTxsel_encode hi
  rw [encode_of_decodeTxsel 13 hd, BitVec.ofNat_toNat, BitVec.setWidth_eq] at hm
  exact ⟨i, hd, hi, hm⟩

/-- Settles O4, by `decodeTxsel_matches` and `txselPattern_unique`. -/
theorem txselPatternsCoverAllWordsOnce : Obligations.TxselPatternsCoverAllWordsOnce := by
  intro w
  obtain ⟨i, hd, -, hi⟩ := decodeTxsel_matches w
  exact ⟨i, hd, matchesTxsel_iff.mp hi, fun j q hq hw => txselPattern_unique hi (matchesTxsel_iff.mpr ⟨q, hq, hw⟩)⟩

/-! ### The step that is selected, and those that are not -/

/-- Settles O11: the move's word is TXSEL, and the operation it decodes to has the one pattern that it matches. -/
theorem controlLoopMoveRunsTheSelectedStep : Obligations.ControlLoopMoveRunsTheSelectedStep := by
  intro s hr
  obtain ⟨i, hd, ha, hi⟩ := decodeTxsel_matches (txselWord s)
  refine ⟨i, ha, (selectedByTxsel_eq i s).trans hi, step_of_decode (s := s.present .tx) hr hd, fun j hj => ?_⟩
  exact txselPattern_unique hi ((selectedByTxsel_eq j s).symm.trans hj)

/-- A guarded operation whose guard fails takes no step. -/
theorem guard_noStep {p : Prop} [Decidable p] {a : Result} {s : State} (h : ¬p) : (if p then a else s.noStep) = .next s :=
  if_neg h

/-- R98: what the meaning of a control loop step asks of the state makes TXSEL select it; so, not selected, it is not
taken. -/
theorem exec_of_not_selected {i : Instr} {s : State} (hi : agentOf i = .tx) (h : selectedByTxsel i s = false) :
    exec i s = .next s := by
  obtain ⟨halted, ready, empty, adv, advread, runEnd, wait, halt⟩ :=
    txselOf_patterns s.enable s.ready s.nonempty s.headAdvread
  have unmatched {p : BitVec 6 × BitVec 6} (hp : txselPattern i = some p) : txselWord s &&& p.1 ≠ p.2 := fun hw =>
    absurd (matchesTxsel_iff.mpr ⟨p, hp, hw⟩) (by simp [← selectedByTxsel_eq, h])
  rw [txselWord_eq] at unmatched
  cases i <;> cases hi
  case txIterHalted x =>
    refine guard_noStep fun ⟨hph, he⟩ => unmatched rfl ?_
    rw [hph, he]
    exact halted
  case txIterReady x =>
    refine guard_noStep fun ⟨hph, he, hr⟩ => unmatched rfl ?_
    rw [hph, he, hr]
    exact ready
  case txIterEmpty x =>
    refine guard_noStep fun ⟨hph, he, hr⟩ => unmatched rfl ?_
    rw [hph, he, hr]
    exact empty
  case txRunAdv x =>
    simp only [exec, execTxRunAdv]
    split
    case h_1 d rest hph hprog =>
      refine absurd ?_ (unmatched rfl)
      rw [hph, show s.nonempty = true by simp [State.nonempty, hprog],
        show s.headAdvread = false by simp [State.headAdvread, hprog]]
      exact adv
    case h_2 => rfl
  case txRunAdvread x =>
    simp only [exec, execTxRunAdvread]
    split
    case h_1 rest hph hprog =>
      refine absurd ?_ (unmatched rfl)
      rw [hph, show s.nonempty = true by simp [State.nonempty, hprog],
        show s.headAdvread = true by simp [State.headAdvread, hprog]]
      exact advread
    case h_2 => rfl
  case txRunEnd x1 x0 =>
    simp only [exec, execTxRunEnd]
    split
    case h_1 hph hprog =>
      refine absurd ?_ (unmatched rfl)
      rw [hph, show s.nonempty = false by simp [State.nonempty, hprog]]
      exact runEnd
    case h_2 => rfl
  case txWait x =>
    refine guard_noStep fun ⟨hph, _⟩ => unmatched rfl ?_
    rw [hph]
    exact wait
  case txHalt x =>
    refine guard_noStep fun ⟨hph, _⟩ => unmatched rfl ?_
    rw [hph]
    exact halt

/-- Settles O49: for the steps TXSEL does not select by `exec_of_not_selected`; in the other clauses the guard fails. -/
theorem stepNotEnabledIsNotTaken : Obligations.StepNotEnabledIsNotTaken := by
  refine ⟨fun i s => exec_of_not_selected, fun s x hmf => ?wait, fun s x hleft => ?halt, fun s d hhead => ?adv,
    fun s x hhead => ?advread⟩
  case wait => exact guard_noStep fun ⟨_, h⟩ => absurd h (by simp [hmf])
  case halt => exact guard_noStep fun ⟨_, h⟩ => hleft h
  case adv => exact guard_noStep (not_and_or.mpr hhead)
  case advread => exact guard_noStep (not_and_or.mpr hhead)

/-- Settles O27: no state enters the meaning of the reserved symbol. -/
theorem reservedSymbolIsRefused : Obligations.ReservedSymbolIsRefused := fun _ => rfl

end Sys2Proof.Machine
end

section
/-! 40_waveform_scheduler.md: the waveform scheduler. Nothing the receiver does touches the waveform (R131), so while the
control loop takes no step it is a function of the number of ticks alone (R125); that function is computed once, for two
turns of the counter, and the distance from one toggle to the next is read off it. -/

namespace Sys2Proof.Machine

/-! ### The three operations -/

/-- Settles O18: the two cases of `countTick`. -/
theorem tickCountsAndTogglesOnAMatch : Obligations.TickCountsAndTogglesOnAMatch := by
  intro s
  obtain ⟨hm, ht⟩ | ⟨hm, ht⟩ := countTick_cases s
  · refine ⟨fun _ => ?_, fun hne => absurd hm hne⟩
    rw [exec, execWsTick, ht]
    rfl
  · refine ⟨fun he => absurd he hm, fun _ => ?_⟩
    rw [exec, execWsTick, ht]
    rfl

/-- Settles O19: the target is the sum of two 16-bit words. -/
theorem advMovesOnlyTheTarget : Obligations.AdvMovesOnlyTheTarget := fun d s =>
  ⟨add16 s.cmp d, BitVec.toNat_add s.cmp d, rfl⟩

/-- Settles O20: the two sides of the guard. -/
theorem waitConsumesTheMatchOrWaits : Obligations.WaitConsumesTheMatchOrWaits := fun _ =>
  ⟨fun hmf => if_pos hmf, fun hmf => guard_noStep (by simp [hmf])⟩

/-! ### The target -/

theorem exec_txRunAdv_of_head {s : State} {d : Ticks} {rest : List UOp} (x : BitVec 2) (hphase : s.txPhase = .run)
    (hprog : s.txProg = .adv d :: rest) : exec (.txRunAdv x) s = .next (s.runAdv d) := by
  simp only [exec, execTxRunAdv, hphase, hprog]

theorem advancedBy_txRunAdv_of_head {s : State} {d : Ticks} {rest : List UOp} (x : BitVec 2) (hphase : s.txPhase = .run)
    (hprog : s.txProg = .adv d :: rest) : advancedBy (.txRunAdv x) s = d := by
  simp only [advancedBy, hphase, hprog]

/-- R214: TX_RUN_ADV is not taken, and adds nothing, unless ADV stands at the head of the running program. -/
theorem txRunAdv_of_no_head {s : State} (x : BitVec 2) (h : ¬∃ d rest, s.txPhase = .run ∧ s.txProg = .adv d :: rest) :
    exec (.txRunAdv x) s = .next s ∧ advancedBy (.txRunAdv x) s = 0 := by
  constructor
  · simp only [exec, execTxRunAdv]
    split
    case h_1 d rest hphase hprog => exact absurd ⟨d, rest, hphase, hprog⟩ h
    case h_2 => rfl
  · simp only [advancedBy]
    split
    case h_1 d rest hphase hprog => exact absurd ⟨d, rest, hphase, hprog⟩ h
    case h_2 => rfl

/-- R121: an operation other than a reset moves the target by the duration it adds, and no operation by anything else. -/
theorem exec_cmp {i : Instr} (s : State) (hi : i ≠ .envReset) :
    AllNext (fun t => t.cmp = s.cmp + advancedBy i s) (exec i s) := by
  have stay : s.cmp = s.cmp + 0 := (BitVec.add_zero _).symm
  cases i with
  | envReset => exact absurd rfl hi
  | symRsvd => exact allNext_refused _
  -- the three forms of WS_ADV
  | wsAdv d => exact allNext_next rfl
  | txRunAdv x =>
    by_cases hhead : ∃ d rest, s.txPhase = .run ∧ s.txProg = .adv d :: rest
    · obtain ⟨d, rest, hphase, hprog⟩ := hhead
      rw [exec_txRunAdv_of_head x hphase hprog, advancedBy_txRunAdv_of_head x hphase hprog]
      exact allNext_next rfl
    · obtain ⟨hexec, hadv⟩ := txRunAdv_of_no_head x hhead
      rw [hexec, hadv]
      exact allNext_next stay
  | uopAdv d =>
    by_cases hhead : s.txPhase = .run ∧ s.txProg.head? = some (.adv d)
    · simp only [exec, execUopAdv, advancedBy, if_pos hhead]
      exact allNext_next rfl
    · simp only [exec, execUopAdv, advancedBy, if_neg hhead]
      exact allNext_next stay
  | wsTick =>
    have hcmp : s.countTick.cmp = s.cmp := by obtain ⟨-, ht⟩ | ⟨-, ht⟩ := countTick_cases s <;> rw [ht]
    exact allNext_next (hcmp.trans stay)
  -- operations that leave the target alone
  | beZero | beOne | bePause | fbFrame1 | fbFrame2 | fbFrame3 | fbFrame4 => exact allNext_next stay
  | ringTrynext | rxAddr | rxRsvd | envEnable => exact allNext_next stay
  | ringAdvread | ringCommit => exact allNext_withSlot fun _ => stay
  | rxData => exact allNext_ite (fun _ => allNext_withSlot fun _ => stay) fun _ => allNext_next stay
  | rxStop =>
    exact allNext_ite (fun _ => allNext_next stay) fun _ =>
      allNext_ite (fun _ => allNext_next stay) fun _ => allNext_withSlot fun _ => stay
  | wsWait | txIterHalted | txIterEmpty | txWait | txHalt => exact allNext_guard stay fun _ => allNext_next stay
  | txIterReady | uopAdvread => exact allNext_guard stay fun _ => allNext_withSlot fun _ => stay
  | txRunAdvread x => exact allNext_txRunAdvread x stay fun _ _ _ _ => stay
  | txRunEnd x1 x0 => exact allNext_txRunEnd x1 x0 stay fun _ _ => stay

/-- Settles O24, by induction on the list: each operation adds its duration (`exec_cmp`). -/
theorem targetIsTheSumOfTheDurations : Obligations.TargetIsTheSumOfTheDurations := by
  intro l
  induction l with
  | nil =>
    rintro s _ - ⟨⟩
    exact (BitVec.add_zero _).symm
  | cons i l ih =>
    intro s t hl hrun
    obtain ⟨hi, hl⟩ := not_or.mp (mt List.mem_cons.mpr hl)
    simp only [runOps, advancedOver] at hrun ⊢
    cases he : exec i s with
    | next u =>
      simp only [he] at hrun ⊢
      rw [ih u t hl hrun, exec_cmp s (Ne.symm hi) u he, BitVec.add_assoc]
    | fault r => simp [he] at hrun
    | refused r => simp [he] at hrun

/-! ### A stale match -/

theorem exec_txWait_of_match {s : State} (y : BitVec 4) (hphase : s.txPhase = .wait) (hmf : s.mf = true) :
    exec (.txWait y) s = .next (s.consumeMatch.goto .run) :=
  if_pos ⟨hphase, hmf⟩

/-- Settles O25: TX_RUN_ADV does not test the flag, so TX_WAIT finds it set. -/
theorem staleMatchEndsAdvanceAtOnce : Obligations.StaleMatchEndsAdvanceAtOnce := by
  intro s d rest x y hphase hprog hmf
  have hwait := exec_txWait_of_match (s := s.runAdv d) y rfl hmf
  rw [runOps_cons (exec_txRunAdv_of_head x hphase hprog), runOps_cons hwait, runOps_nil]
  simp only [State.runAdv, State.consumeMatch, State.goto, hprog, hphase, add16, List.tail_cons]

/-! ### The waveform, tick by tick -/

/-- The registers of the waveform scheduler (10_state.md R22), with the time and the toggles recorded. -/
structure Wave where
  cnt : Ticks
  cmp : Ticks
  mf : Bool
  pin : Bool
  now : Nat
  toggled : List (Nat × Bool)

/-- The waveform part of a state. -/
def State.wave (s : State) : Wave := ⟨s.cnt, s.cmp, s.mf, s.pin, s.now, toggles s.trace⟩

/-- n ticks without a match. -/
def Wave.count (n : Nat) (w : Wave) : Wave := { w with cnt := w.cnt + BitVec.ofNat 16 n, now := w.now + n }

/-- What the match of this moment does (R120). -/
def Wave.toggle (w : Wave) : Wave :=
  { w with mf := true, pin := !w.pin, toggled := w.toggled ++ [(w.now, !w.pin)] }

/-- The waveform part of WS_TICK (R120), by `wave_countTick`. -/
def Wave.tick (w : Wave) : Wave := if w.cnt + 1 = w.cmp then (w.count 1).toggle else w.count 1

/-- The waveform part of WS_ADV (R121), by `wave_advanceTarget`. -/
def Wave.advance (d : Ticks) (w : Wave) : Wave := { w with cmp := w.cmp + d }

/-- The ticks to the next match, 1 to 65536, by `wave_toMatch`. -/
def Wave.toMatch (w : Wave) : Nat := (w.cmp - w.cnt - 1).toNat + 1

theorem toggles_append (tr evs : List Event) : toggles (tr ++ evs) = toggles tr ++ toggles evs :=
  List.filterMap_append

theorem wave_countTick (s : State) : s.countTick.countDelay.wave = s.wave.tick := by
  obtain ⟨hm, ht⟩ | ⟨hm, ht⟩ := countTick_cases s
  · rw [ht, Wave.tick, if_pos (show s.wave.cnt + 1 = s.wave.cmp from hm)]
    simp [State.wave, State.countDelay, Wave.count, Wave.toggle, toggles]
  · rw [ht, Wave.tick, if_neg (show ¬s.wave.cnt + 1 = s.wave.cmp from hm)]
    rfl

theorem wave_advanceTarget (s : State) (d : Ticks) : (s.advanceTarget d).wave = s.wave.advance d := rfl

theorem wave_toMatch (s : State) : s.wave.toMatch = s.ticksToMatch := rfl

/-! ### Ticks and bus events -/

theorem rxEffect_events_toggles (e : Instr) (off : Offset) (ovf : Bool) (wr : Cursor) :
    toggles (rxEffect e off ovf wr).events = [] := by
  unfold rxEffect
  split
  case h_1 => rfl
  case h_2 => split <;> rfl
  case h_3 => split_ifs <;> rfl
  case h_4 => rfl

theorem rxEffect_slotExists (e : Instr) (off : Offset) (ovf : Bool) {wr : Cursor} (h : slotExists wr = true) :
    slotExists (rxEffect e off ovf wr).wr = true := by
  unfold rxEffect
  split
  case h_1 => exact h
  case h_2 => split <;> exact h
  case h_3 =>
    split_ifs
    · exact h
    · exact h
    · exact slotExists_incCap wr
  case h_4 => exact h

/-- R131: an event on the bus does not touch the waveform. -/
theorem exec_rx_wave {e : Instr} {s : State} (he : agentOf e = .rx) (hwr : slotExists s.wr = true) :
    ∃ t, exec e s = .next t ∧ slotExists t.wr = true ∧ t.wave = s.wave := by
  refine ⟨_, exec_rx he hwr, rxEffect_slotExists e _ _ hwr, ?_⟩
  simp [State.wave, RxEffect.apply, toggles_append, rxEffect_events_toggles]

theorem exec_wsTick_wave {s : State} (hwr : slotExists s.wr = true) :
    ∃ t, exec .wsTick s = .next t ∧ slotExists t.wr = true ∧ t.wave = s.wave.tick := by
  refine ⟨_, rfl, ?_, wave_countTick s⟩
  obtain ⟨-, ht⟩ | ⟨-, ht⟩ := countTick_cases s <;> rw [ht] <;> exact hwr

theorem eq_wsTick_of_hw {i : Instr} (hi : agentOf i = .hw) : i = .wsTick := by
  cases i <;> cases hi
  case wsTick => rfl

/-- R125: while the control loop takes no step, the waveform is what the ticks make of it. -/
theorem runOps_wave {l : List Instr} {s : State} (hwr : slotExists s.wr = true) (hl : ticksAndEvents l) :
    ∃ t, runOps l s = .next t ∧ slotExists t.wr = true ∧ t.wave = Wave.tick^[tickCount l] s.wave := by
  induction l generalizing s with
  | nil => exact ⟨s, rfl, hwr, rfl⟩
  | cons i l ih =>
    obtain ⟨hi, hrest⟩ := List.forall_mem_cons.mp hl
    rcases hi with hi | hi
    case inl =>
      obtain rfl := eq_wsTick_of_hw hi
      obtain ⟨u, hexec, hwr, hu⟩ := exec_wsTick_wave hwr
      obtain ⟨t, hrun, hwr, ht⟩ := ih hwr hrest
      have hcount : tickCount (.wsTick :: l) = tickCount l + 1 := List.countP_cons_of_pos (by decide)
      exact ⟨t, (runOps_cons hexec).trans hrun, hwr, by rw [ht, hu, hcount, Function.iterate_succ_apply]⟩
    case inr =>
      obtain ⟨u, hexec, hwr, hu⟩ := exec_rx_wave hi hwr
      obtain ⟨t, hrun, hwr, ht⟩ := ih hwr hrest
      have hcount : tickCount (i :: l) = tickCount l :=
        List.countP_cons_of_neg fun h => by rw [beq_iff_eq.mp h] at hi; cases hi
      exact ⟨t, (runOps_cons hexec).trans hrun, hwr, by rw [ht, hu, hcount]⟩

/-! ### The next toggle -/

section
variable {w : Wave} {n : Nat}

theorem Wave.count_one_count : (w.count n).count 1 = w.count (n + 1) := by
  simp [count, Nat.add_assoc, BitVec.add_assoc, BitVec.ofNat_add]

/-- The counter reaches the target at tick `toMatch`, and at no tick before. -/
theorem Wave.count_reaches_iff (hn : n < w.toMatch) : (w.count n).cnt + 1 = (w.count n).cmp ↔ n + 1 = w.toMatch := by
  simp only [toMatch, count] at hn ⊢
  constructor
  all_goals intro h; bv_omega

/-- Before tick `toMatch` the counter counts, and nothing else happens. -/
theorem Wave.tick_iterate_of_lt (hn : n < w.toMatch) : tick^[n] w = w.count n := by
  induction n with
  | zero => simp [count]
  | succ n ih =>
    have hquiet : ¬(w.count n).cnt + 1 = (w.count n).cmp := mt (count_reaches_iff (Nat.lt_of_succ_lt hn)).mp hn.ne
    rw [Function.iterate_succ_apply', ih (Nat.lt_of_succ_lt hn), tick, if_neg hquiet, count_one_count]

/-- At tick `toMatch` the pin toggles. -/
theorem Wave.tick_iterate_toMatch (w : Wave) : tick^[w.toMatch] w = (w.count w.toMatch).toggle := by
  obtain ⟨n, hn⟩ : ∃ n, n + 1 = w.toMatch := ⟨_, rfl⟩
  have hlt : n < w.toMatch := by omega
  rw [← hn, Function.iterate_succ_apply', tick_iterate_of_lt hlt, tick, if_pos ((count_reaches_iff hlt).mpr hn),
    count_one_count]

/-- R130: with the counter on the target, the next match is one whole turn away. -/
theorem Wave.toMatch_of_cnt_eq_cmp (h : w.cnt = w.cmp) : w.toMatch = 65536 := by
  simp [toMatch, h]

/-- From tick `toMatch` on nothing more happens for one turn of the counter. -/
theorem Wave.tick_iterate_of_ge (h : w.toMatch ≤ n) (hn : n < w.toMatch + 65536) :
    tick^[n] w = (w.count w.toMatch).toggle.count (n - w.toMatch) := by
  have hmatch : (w.count w.toMatch).toggle.cnt = (w.count w.toMatch).toggle.cmp := by
    simp only [toggle, count, toMatch]
    bv_omega
  have hturn : n - w.toMatch < (w.count w.toMatch).toggle.toMatch := by
    rw [toMatch_of_cnt_eq_cmp hmatch]
    omega
  conv_lhs => rw [← Nat.sub_add_cancel h]
  rw [Function.iterate_add_apply, tick_iterate_toMatch, tick_iterate_of_lt hturn]

/-- 70_reset_and_hazards.md R262: the toggle of tick `toMatch` is the only one until a turn of the counter after it. -/
theorem Wave.tick_iterate_toggled (hn : n < w.toMatch + 65536) :
    (tick^[n] w).toggled = w.toggled ++ (if w.toMatch ≤ n then [(w.now + w.toMatch, !w.pin)] else []) := by
  split
  case isTrue h =>
    rw [tick_iterate_of_ge h hn]
    rfl
  case isFalse h =>
    rw [tick_iterate_of_lt (Nat.lt_of_not_le h), List.append_nil]
    rfl

/-! ### The toggle after an update -/

/-- The target is moved by d, n ticks after a match: the next match is k ticks after that one, where k is the one number
above n, but by no more than a turn of the counter, that is d modulo 65536. -/
theorem Wave.toMatch_advance {d : Ticks} {k : Nat} (hmatch : w.cnt = w.cmp) (hk : k % 65536 = d.toNat) (hlt : n < k)
    (hle : k ≤ n + 65536) : ((w.count n).advance d).toMatch = k - n := by
  simp only [toMatch, advance, count, hmatch]
  bv_omega

end

/-- R127 and R129 in one: a match, fewer than 65536 ticks, WS_ADV(d), more ticks, and bus events anywhere. The next toggle is
k ticks after the match, with the k of `Wave.toMatch_advance` for the latency. -/
theorem runOps_match_adv {s : State} {d : Ticks} {before after : List Instr} {k : Nat} (hrange : s.inRange = true)
    (hmatch : s.cnt = s.cmp) (hbefore : ticksAndEvents before) (hafter : ticksAndEvents after)
    (hturn : tickCount before < 65536) (hk : k % 65536 = d.toNat) (hlt : tickCount before < k)
    (hle : k ≤ tickCount before + 65536) (hticks : tickCount before + tickCount after < k + 65536) :
    ∃ t, runOps (before ++ .wsAdv d :: after) s = .next t
      ∧ toggles t.trace = toggles s.trace
          ++ (if k ≤ tickCount before + tickCount after then [(s.now + k, !s.pin)] else []) := by
  obtain ⟨u, hu, hwr, huw⟩ := runOps_wave (slotExists_of_inRange hrange).1 hbefore
  obtain ⟨t, ht, -, htw⟩ := runOps_wave (s := u.advanceTarget d) hwr hafter
  refine ⟨t, by rw [runOps_append hu, runOps_cons rfl, ht], ?_⟩
  have hquiet : tickCount before < s.wave.toMatch := (Wave.toMatch_of_cnt_eq_cmp (w := s.wave) hmatch).symm ▸ hturn
  rw [wave_advanceTarget, huw, Wave.tick_iterate_of_lt hquiet] at htw
  have hnext : ((s.wave.count (tickCount before)).advance d).toMatch = k - tickCount before :=
    Wave.toMatch_advance hmatch hk hlt hle
  have htoggled := Wave.tick_iterate_toggled (w := (s.wave.count (tickCount before)).advance d) (n := tickCount after)
    (by omega)
  have hdue : k - tickCount before ≤ tickCount after ↔ k ≤ tickCount before + tickCount after := by omega
  have htime : s.now + tickCount before + (k - tickCount before) = s.now + k := by omega
  rw [← htw, hnext] at htoggled
  simpa only [State.wave, Wave.count, Wave.advance, hdue, htime] using htoggled

/-- Settles O22: above the latency λ < d and within a turn of it, d itself is d modulo 65536. -/
theorem semiPeriodIsExactWithinTheLatencyBound : Obligations.SemiPeriodIsExactWithinTheLatencyBound := by
  intro s d before after hrange hmatch hbefore hafter hlatency hticks
  have hd := d.isLt
  exact runOps_match_adv hrange hmatch hbefore hafter (by omega) (Nat.mod_eq_of_lt hd) hlatency (by omega) hticks

/-- Settles O23: a latency of d or more leaves d + 65536 as the next number that is d modulo 65536. -/
theorem lateUpdateCostsOneTurnOfTheCounter : Obligations.LateUpdateCostsOneTurnOfTheCounter := by
  intro s d before after hrange hmatch hbefore hafter hlate hturn hticks
  have hd := d.isLt
  have hturns : tickCount before + tickCount after < d.toNat + 65536 + 65536 :=
    hticks.trans_eq (Nat.add_assoc d.toNat 65536 65536).symm
  rw [Nat.add_assoc s.now]
  exact runOps_match_adv hrange hmatch hbefore hafter hturn (by omega) (by omega) (by omega) hturns

end Sys2Proof.Machine
end

section
/-! 41_bit_encoder.md: the bit encoder. Each of its operations answers its symbol's program (R143) and writes nothing else
(R145); the program is written out once per symbol. -/

namespace Sys2Proof.Machine

section
variable (c : Config.Params)

/-- R140 and R143. -/
@[simp] theorem symProg_one : symProg c .one = [.adv c.tOne, .adv c.tOne] := rfl

/-- R141 and R143. -/
@[simp] theorem symProg_zero : symProg c .zero = [.adv c.tZero, .adv c.tZero] := rfl

/-- R142 and R143. -/
@[simp] theorem symProg_pause : symProg c .pause = [.adv c.tPause] := rfl

end

/-- Settles O26: the three lists are the programs of the symbols, and each operation responds with its symbol's program. -/
theorem symbolsExpandToTheirDurations : Obligations.SymbolsExpandToTheirDurations := by
  intro s
  rw [← symProg_one, ← symProg_zero, ← symProg_pause]
  refine ⟨?one, ?zero, ?pause⟩
  case one => rw [exec, execBeOne, State.respond]
  case zero => rw [exec, execBeZero, State.respond]
  case pause => rw [exec, execBePause, State.respond]

end Sys2Proof.Machine
end

section
/-! 42_frame_encoder.md: the frame encoder. The sizes of a frame are sums over its bits (R157), the checksum is the XOR of the
valid bytes and of no others (R151, R161), and the frame operations answer both expansions of their packet (R156, R158). -/

namespace Sys2Proof.Machine

section
variable (c : Config.Params)

/-! ### The sizes of a frame -/

theorem bitProg_length (bits : List Bool) : (bitProg c bits).length = 2 * bits.length := by
  induction bits with
  | nil => rfl
  | cons v bits ih =>
    rw [bitProg_cons, List.length_cons, List.length_cons, List.length_cons, ih]
    omega

/-- R157: every bit lasts twice its duration. -/
theorem bitProg_ticks (bits : List Bool) :
    progTicks (bitProg c bits) = 2 * c.tOne.toNat * bits.count true + 2 * c.tZero.toNat * bits.count false := by
  induction bits with
  | nil => rfl
  | cons v bits ih =>
    rw [bitProg_cons, progTicks, progTicks, ih]
    cases v with
    | true =>
      rw [List.count_cons_self, List.count_cons_of_ne (by decide), show bitDur c true = c.tOne from rfl]
      ring
    | false =>
      rw [List.count_cons_self, List.count_cons_of_ne (by decide), show bitDur c false = c.tZero from rfl]
      ring

/-- R158. -/
theorem frameProg_eq_bitProg (ds : List Byte) (k : Byte) : frameProg c ds k = bitProg c (frameBits c.nPre ds k) := rfl

end

/-- R154: beside the zeros of its data bits, every group has its separator. -/
theorem dataGroups_count_false (ds : List Byte) :
    (ds.flatMap dataGroup).count false = (ds.flatMap byteBits).count false + ds.length := by
  induction ds with
  | nil => rfl
  | cons d ds ih =>
    rw [List.flatMap_cons, List.flatMap_cons, List.count_append, List.count_append, ih, dataGroup, List.count_append,
      List.count_singleton_self, List.length_cons]
    omega

/-- R157: z + n + 1 of the bits are zeros; the preamble and the stop bit have none. -/
theorem frameBits_count_false (nPre : Nat) (ds : List Byte) (k : Byte) :
    (frameBits nPre ds k).count false = ((ds ++ [k]).flatMap byteBits).count false + ds.length + 1 := by
  have preamble : (List.replicate nPre true).count false = 0 := List.count_eq_zero.mpr (by simp)
  have stop : [true].count false = 0 := rfl
  rw [frameBits_eq, frameBody, List.count_append, preamble, List.count_cons_self, List.count_append, List.count_append, stop,
    dataGroups_count_false, List.flatMap_append, List.flatMap_singleton, List.count_append]
  omega

/-- Settles O7: two micro-operations a bit, the ticks of every bit, and the zeros part by part. -/
theorem frameLengthAndDuration : Obligations.FrameLengthAndDuration := by
  intro c ds k
  rw [frameProg_eq_bitProg]
  refine ⟨?length, bitProg_ticks c _, frameBits_count_false c.nPre ds k⟩
  case length => rw [bitProg_length, frameBits_length]

/-! ### The checksum -/

/-- R151: the order does not matter. -/
theorem xorBytes_perm {ds es : List Byte} (h : ds.Perm es) : xorBytes ds = xorBytes es := h.foldl_eq 0

@[simp] theorem xorBytes_singleton (v : Byte) : xorBytes [v] = v := BitVec.zero_xor

theorem xorBytes_concat (ds : List Byte) (v : Byte) : xorBytes (ds ++ [v]) = xorBytes ds ^^^ v :=
  List.foldl_concat ..

theorem xorBytes_pair_self (v : Byte) : xorBytes [v, v] = 0 := by
  rw [show [v, v] = [v] ++ [v] from rfl, xorBytes_concat, xorBytes_singleton]
  exact BitVec.xor_self

/-- R161: the other bytes do not enter the program. -/
theorem packetProg_congr (c : Config.Params) {p q : Slot} (h : validBytes p = validBytes q) :
    packetProg c p = packetProg c q := by
  rw [packetProg, packetProg, checksum, checksum, h]

/-- R151: byte j enters if j is at most the usage count. -/
theorem checksum_eq (p : Slot) :
    checksum p = p.b0 ^^^ (if 1 ≤ p.uc.toNat then p.b1 else 0) ^^^ (if 2 ≤ p.uc.toNat then p.b2 else 0)
      ^^^ (if 3 ≤ p.uc.toNat then p.b3 else 0) := by
  rw [checksum, validBytes]
  match p.uc.toNat, p.uc.isLt with
  | 0, _ | 1, _ | 2, _ | 3, _ => simp [xorBytes]

/-- Settles O8: the laws of the XOR, and the checksum as the XOR of the bytes 0 to uc. -/
theorem checksumOfTheValidBytesInAnyOrder : Obligations.ChecksumOfTheValidBytesInAnyOrder :=
  ⟨fun _ _ => xorBytes_perm, fun v => ⟨xorBytes_singleton v, xorBytes_pair_self v⟩,
    fun c _ _ _ h => ⟨congrArg xorBytes h, packetProg_congr c h⟩, checksum_eq⟩

/-! ### The frame operations -/

/-- R158 with R140 and R141: the two micro-operations of a bit. -/
theorem symProg_bitSym (c : Config.Params) (v : Bool) :
    symProg c (bitSym v) = if v then [.adv c.tOne, .adv c.tOne] else [.adv c.tZero, .adv c.tZero] := by
  cases v with
  | true => exact symProg_one c
  | false => exact symProg_zero c

/-- R156 and R158: what FrameBuilder answers; R159: nothing else changes. -/
theorem respondFrame_eq (ds : List Byte) (k : Byte) (s : State) :
    s.respondFrame ds k =
      { s with answer := .frame (frameBits s.cfg.nPre ds k)
                 ((frameBits s.cfg.nPre ds k).flatMap fun v =>
                   if v then [.adv s.cfg.tOne, .adv s.cfg.tOne] else [.adv s.cfg.tZero, .adv s.cfg.tZero]) } := by
  simp only [State.respondFrame, State.respond, frameProg, symProg_bitSym]

/-- Settles O28: each operation is `respondFrame` of its bytes. -/
theorem framesExpandToBitsAndMicroOperations : Obligations.FramesExpandToBitsAndMicroOperations := by
  intro s a b c d k answered
  have answers (ds : List Byte) : .next (s.respondFrame ds k) = answered ds := congrArg _ (respondFrame_eq ds k s)
  exact ⟨answers [a], answers [a, b], answers [a, b, c], answers [a, b, c, d]⟩

end Sys2Proof.Machine
end

section
/-! 43_packet_ring.md: the packet ring. What an operation does to the ring is one of three things (`RingEffect`): it keeps
both cursors, it commits, or it advances the read cursor; each leaves all slots but one alone. The unread packets are read
off the cursors and the slots, so that for each of the three it is said once what becomes of them. -/

namespace Sys2Proof.Machine

/-! ### The three operations -/

/-- 30_encoding.md R94: `{valid, index}` is the valid bit put before the index. -/
theorem qresWord_some (i : Cursor) : qresWord (some i) = BitVec.append 1#1 i := by
  have hi := i.isLt
  have happend : (BitVec.append 1#1 i).toNat = 64 + i.toNat := by
    rw [BitVec.append_eq, BitVec.toNat_append, ← Nat.shiftLeft_add_eq_or_of_lt hi]
    rfl
  refine BitVec.eq_of_toNat_eq ?_
  rw [happend, qresWord, BitVec.toNat_ofNat]
  omega

/-- Settles O29: the two cases of `tryNext_cases`, each with its word. -/
theorem tryNextAnswersTheReadCursor : Obligations.TryNextAnswersTheReadCursor := by
  intro s v i
  obtain ⟨hne, ht⟩ | ⟨heq, ht⟩ := tryNext_cases s
  · refine ⟨fun _ => ?_, fun heq => absurd heq hne⟩
    rw [exec, execRingTrynext, ht, qresWord_some, State.respond]
  · refine ⟨fun hne => absurd heq hne, fun _ => ?_⟩
    rw [exec, execRingTrynext, ht, State.respond, qresWord]

theorem slotExists_iff {i : Cursor} : slotExists i = true ↔ i.toNat < 42 := decide_eq_true_iff

/-- Settles O30, by `clearSlot_spec`. -/
theorem advreadClearsTheSlotAndAdvances : Obligations.AdvreadClearsTheSlotAndAdvances := by
  intro s hmem hrd
  have hslot := slotExists_iff.mpr hrd
  obtain ⟨-, hcleared, hother⟩ := clearSlot_spec hmem hslot
  exact ⟨s.advanceRead, withSlot_exists hslot, rfl, incCap_toNat s.rd, hcleared, hother⟩

/-- 10_state.md R25: a usage count has two bits, and its cell holds them. -/
theorem readSlot_uc_writeUsage {m : Memory} {i : Cursor} (u : Usage) (h : Memory.wf m = true) :
    (readSlot (writeUsage m i u) i).uc = u := by
  have hread : (writeUsage m i u).read (cellAddr i .uc) = u.setWidth 8 := Memory.read_write_wf h
  rw [readSlot, hread, BitVec.setWidth_setWidth_of_le u (by decide), BitVec.setWidth_eq]

/-- Settles O31: the bytes of the word do not enter, and only the usage count is written. -/
theorem commitWritesTheUsageAndAdvances : Obligations.CommitWritesTheUsageAndAdvances := by
  intro s u d c b a hmem hwr
  exact ⟨s.commit u, withSlot_exists (slotExists_iff.mpr hwr), rfl, incCap_toNat s.wr, readSlot_uc_writeUsage u hmem,
    fun _ hx => Memory.read_write_other hx⟩

/-! ### What an operation does to the ring -/

/-- Every slot but c holds what it held. -/
def SlotsKeptBut (c : Cursor) (m n : Memory) : Prop := ∀ j, j ≠ c → readSlot n j = readSlot m j

theorem slotsKeptBut_write {m : Memory} {c : Cursor} {f : Field} {v : Byte} :
    SlotsKeptBut c m (m.write (cellAddr c f) v) := fun _ hj => readSlot_write (Ne.symm hj)

theorem slotsKeptBut_clearSlot {m : Memory} {c : Cursor} : SlotsKeptBut c m (clearSlot m c) := fun _ hj =>
  readSlot_congr fun _ => clearSlot_read_other fun _ he => hj (cellAddr_inj he).1

/-- What becomes of the ring in a step of operation i from s to t, with the operations that can do it and the one slot they
may write (43_packet_ring.md R172, R173, R179). -/
inductive RingEffect (i : Instr) (s t : State) : Prop where
  /-- the cursors stay; a data byte may have been stored in the slot at the write cursor -/
  | keep (wr : t.wr = s.wr) (rd : t.rd = s.rd) (slots : SlotsKeptBut s.wr s.mem t.mem)
  /-- the slot at the write cursor is committed -/
  | commit (cause : (∃ x, i = .rxStop x) ∨ ∃ u d c b a, i = .ringCommit u d c b a)
      (wr : t.wr = incCap s.wr) (rd : t.rd = s.rd) (slots : SlotsKeptBut s.wr s.mem t.mem)
  /-- the slot at the read cursor is cleared and given back -/
  | advance (cause : (∃ x, i = .txRunAdvread x) ∨ i = .ringAdvread ∨ ∃ x, i = .uopAdvread x)
      (wr : t.wr = s.wr) (rd : t.rd = incCap s.rd) (slots : SlotsKeptBut s.rd s.mem t.mem)

theorem RingEffect.of_eq {i : Instr} {s t : State} (wr : t.wr = s.wr) (rd : t.rd = s.rd) (mem : t.mem = s.mem) :
    RingEffect i s t :=
  .keep wr rd fun _ _ => by rw [mem]

theorem RingEffect.of_hwOwns {i : Instr} {s t : State} (h : HwOwns s t) : RingEffect i s t := by
  obtain ⟨howns, -⟩ := h
  exact .of_eq (by rw [howns]) (by rw [howns]) (by rw [howns])

/-- Every operation but a reset has one of the three effects. -/
theorem exec_ring {i : Instr} (s : State) (hi : i ≠ .envReset) : AllNext (RingEffect i s) (exec i s) := by
  have stay : RingEffect i s s := .of_eq rfl rfl rfl
  cases i with
  | envReset => exact absurd rfl hi
  | symRsvd => exact allNext_refused _
  -- the receiver's byte, the commits and the forms of ADVREAD
  | rxData d =>
    exact allNext_ite (fun _ => allNext_withSlot fun _ => .keep rfl rfl slotsKeptBut_write)
      fun _ => allNext_next (.of_eq rfl rfl rfl)
  | rxStop x =>
    exact allNext_ite (fun _ => allNext_next (.of_eq rfl rfl rfl)) fun _ =>
      allNext_ite (fun _ => allNext_next stay) fun _ =>
        allNext_withSlot fun _ => .commit (.inl ⟨x, rfl⟩) rfl rfl slotsKeptBut_write
  | ringCommit u d c b a =>
    exact allNext_withSlot fun _ => .commit (.inr ⟨u, d, c, b, a, rfl⟩) rfl rfl slotsKeptBut_write
  | txRunAdvread x =>
    exact allNext_txRunAdvread x stay fun _ _ _ _ => .advance (.inl ⟨x, rfl⟩) rfl rfl slotsKeptBut_clearSlot
  | ringAdvread => exact allNext_withSlot fun _ => .advance (.inr (.inl rfl)) rfl rfl slotsKeptBut_clearSlot
  | uopAdvread x =>
    exact allNext_guard stay fun _ =>
      allNext_withSlot fun _ => .advance (.inr (.inr ⟨x, rfl⟩)) rfl rfl slotsKeptBut_clearSlot
  -- operations that leave the ring alone
  | wsTick => exact allNext_next (.of_hwOwns (countTick_owns s))
  | wsAdv | beZero | beOne | bePause | fbFrame1 | fbFrame2 | fbFrame3 | fbFrame4 =>
    exact allNext_next (.of_eq rfl rfl rfl)
  | ringTrynext | rxAddr | rxRsvd | envEnable => exact allNext_next (.of_eq rfl rfl rfl)
  | wsWait | txIterHalted | txIterEmpty | txWait | txHalt | uopAdv =>
    exact allNext_guard stay fun _ => allNext_next (.of_eq rfl rfl rfl)
  | txIterReady => exact allNext_guard stay fun _ => allNext_withSlot fun _ => .of_eq rfl rfl rfl
  | txRunAdv x => exact allNext_txRunAdv x stay fun _ _ _ _ => .of_eq rfl rfl rfl
  | txRunEnd x1 x0 => exact allNext_txRunEnd x1 x0 stay fun _ _ => .of_eq rfl rfl rfl

/-- Settles O32: the cursors in the three effects. -/
theorem cursorsOnlyMoveForwardByOne : Obligations.CursorsOnlyMoveForwardByOne := by
  intro i s t hi ht
  cases exec_ring s hi t ht with
  | keep wr rd _ => exact ⟨.inl wr, .inl rd⟩
  | commit cause wr rd _ => exact ⟨.inr ⟨wr, cause⟩, .inl rd⟩
  | advance cause wr rd _ => exact ⟨.inl wr, .inr ⟨rd, cause⟩⟩

/-! ### The cursors between `rd` and `wr` -/

theorem cursorAfter_toNat (c : Cursor) (n : Nat) : (cursorAfter c n).toNat = (c.toNat + n) % 42 := by
  simp only [cursorAfter, Config.cap, BitVec.toNat_ofNat]
  omega

theorem cursorAfter_zero {c : Cursor} (h : slotExists c = true) : cursorAfter c 0 = c :=
  BitVec.eq_of_toNat_eq ((cursorAfter_toNat c 0).trans (Nat.mod_eq_of_lt (slotExists_iff.mp h)))

theorem cursorAfter_incCap (c : Cursor) (n : Nat) : cursorAfter (incCap c) n = cursorAfter c (n + 1) := by
  apply BitVec.eq_of_toNat_eq
  simp only [cursorAfter_toNat, incCap_toNat]
  omega

/-- Less than a whole turn away from a cursor stand other cursors. -/
theorem cursorAfter_ne {c : Cursor} {n : Nat} (hpos : 0 < n) (hn : n < 42) : cursorAfter c n ≠ c := by
  intro he
  have := cursorAfter_toNat c n
  rw [he] at this
  omega

section
variable {s t : State}

/-- `avail` without the names of the model: 43_packet_ring.md R177. -/
theorem avail_eq (s : State) : s.avail = (s.wr.toNat + 42 - s.rd.toNat) % 42 := rfl

theorem avail_lt (s : State) : s.avail < 42 := Nat.mod_lt _ (by decide)

theorem avail_congr (hwr : t.wr = s.wr) (hrd : t.rd = s.rd) : t.avail = s.avail := by
  rw [avail_eq, avail_eq, hwr, hrd]

/-- R170 and R177: ready says that a packet is available. -/
theorem avail_eq_zero_iff (h : s.Ranges) : s.avail = 0 ↔ s.rd = s.wr := by
  have hwr := slotExists_iff.mp h.wr
  have hrd := slotExists_iff.mp h.rd
  rw [avail_eq, ← BitVec.toNat_inj]
  omega

/-- `avail` slots after the read cursor stands the write cursor. -/
theorem cursorAfter_avail (h : s.Ranges) : cursorAfter s.rd s.avail = s.wr := by
  have hwr := slotExists_iff.mp h.wr
  have hrd := slotExists_iff.mp h.rd
  apply BitVec.eq_of_toNat_eq
  rw [cursorAfter_toNat, avail_eq]
  omega

/-- The slot being filled is not among the unread ones. -/
theorem cursorAfter_ne_wr (h : s.Ranges) {n : Nat} (hn : n < s.avail) : cursorAfter s.rd n ≠ s.wr := by
  intro he
  have hlt := avail_lt s
  have := congrArg BitVec.toNat (he.trans (cursorAfter_avail h).symm)
  rw [cursorAfter_toNat, cursorAfter_toNat] at this
  omega

theorem avail_of_commit (h : s.Ranges) (hwr : t.wr = incCap s.wr) (hrd : t.rd = s.rd) (hfree : s.avail < 41) :
    t.avail = s.avail + 1 := by
  have hw := slotExists_iff.mp h.wr
  have hr := slotExists_iff.mp h.rd
  rw [avail_eq] at hfree ⊢
  rw [avail_eq, hwr, hrd, incCap_toNat]
  omega

theorem avail_of_advance (h : s.Ranges) (hwr : t.wr = s.wr) (hrd : t.rd = incCap s.rd) (hsome : s.avail ≠ 0) :
    s.avail = t.avail + 1 := by
  have hw := slotExists_iff.mp h.wr
  have hr := slotExists_iff.mp h.rd
  rw [avail_eq] at hsome ⊢
  rw [avail_eq, hwr, hrd, incCap_toNat]
  omega

/-! ### The unread packets -/

theorem unread_eq_nil_iff (s : State) : s.unread = [] ↔ s.avail = 0 := by
  simp [State.unread]

/-- The head of the queue is the slot at the read cursor. -/
theorem unread_eq_cons (h : s.Ranges) (hsome : s.avail ≠ 0) :
    s.unread = readSlot s.mem s.rd
      :: (List.range (s.avail - 1)).map fun n => readSlot s.mem (cursorAfter s.rd (n + 1)) := by
  obtain ⟨k, hk⟩ := Nat.exists_eq_succ_of_ne_zero hsome
  rw [State.unread, hk, List.range_succ_eq_map, List.map_cons, List.map_map, cursorAfter_zero h.rd]
  rfl

/-- A byte stored in the slot being filled does not touch the queue. -/
theorem unread_of_keep (h : s.Ranges) (hwr : t.wr = s.wr) (hrd : t.rd = s.rd)
    (hslots : SlotsKeptBut s.wr s.mem t.mem) : t.unread = s.unread := by
  rw [State.unread, State.unread, avail_congr hwr hrd, hrd]
  exact List.map_congr_left fun n hn => hslots _ (cursorAfter_ne_wr h (List.mem_range.mp hn))

/-- 43_packet_ring.md R175: a commit puts the slot just filled at the end of the queue. -/
theorem unread_of_commit (h : s.Ranges) (hwr : t.wr = incCap s.wr) (hrd : t.rd = s.rd)
    (hslots : SlotsKeptBut s.wr s.mem t.mem) (hfree : s.avail < 41) :
    t.unread = s.unread ++ [readSlot t.mem s.wr] := by
  rw [State.unread, State.unread, avail_of_commit h hwr hrd hfree, hrd, List.range_succ, List.map_append,
    List.map_singleton, cursorAfter_avail h]
  congr 1
  exact List.map_congr_left fun n hn => hslots _ (cursorAfter_ne_wr h (List.mem_range.mp hn))

/-- 43_packet_ring.md R178: an ADVREAD takes the head of the queue away. -/
theorem unread_of_advance (h : s.Ranges) (hwr : t.wr = s.wr) (hrd : t.rd = incCap s.rd)
    (hslots : SlotsKeptBut s.rd s.mem t.mem) (hsome : s.avail ≠ 0) : t.unread = s.unread.tail := by
  have havail := avail_of_advance h hwr hrd hsome
  have hlt := avail_lt s
  rw [unread_eq_cons h hsome, List.tail_cons, State.unread, havail, Nat.add_sub_cancel, hrd]
  refine List.map_congr_left fun n hn => ?_
  have hn := List.mem_range.mp hn
  rw [cursorAfter_incCap]
  exact hslots _ (cursorAfter_ne (by omega) (by omega))

end

/-! ### What an iteration latches -/

/-- 30_encoding.md R98: TXSEL selects TX_ITER_READY in the states that enable it. -/
theorem txselOf_iterReady {ph : Phase} {e r n a : Bool} (h : txselOf ph e r n a &&& 0b111100 = 0b001100) :
    ph = .iter ∧ e = true ∧ r = true := by
  cases ph <;> revert e r n a <;> decide

/-- What the step then does. -/
theorem exec_txIterReady_of_selected {s : State} (x : BitVec 2) (hrd : slotExists s.rd = true)
    (h : selectedByTxsel (.txIterReady x) s = true) :
    s.ready = true ∧ exec (.txIterReady x) s
      = .next ((s.latchPacket.startProg (packetProg s.cfg (readSlot s.mem s.rd))).emit .kick) := by
  obtain ⟨hphase, henable, hready⟩ := txselOf_iterReady (beq_iff_eq.mp h)
  exact ⟨hready, (if_pos ⟨hphase, henable, hready⟩).trans (withSlot_exists hrd)⟩

/-- 45_control_loop.md R212: a ready iteration latches the oldest unread packet. -/
theorem txIterReady_latches_head {s t : State} {x : BitVec 2} (h : s.Ranges)
    (hsel : selectedByTxsel (.txIterReady x) s = true) (ht : exec (.txIterReady x) s = .next t) :
    s.unread.head? = some t.fr := by
  obtain ⟨hready, hexec⟩ := exec_txIterReady_of_selected x h.rd hsel
  obtain rfl := Host.Outcome.next.inj (hexec.symm.trans ht)
  have hne : s.rd ≠ s.wr := bne_iff_ne.mp hready
  rw [unread_eq_cons h (mt (avail_eq_zero_iff h).mp hne)]
  rfl

/-- Settles O33: for each effect on the ring, what becomes of the unread packets. -/
theorem unreadPacketsAreAQueue : Obligations.UnreadPacketsAreAQueue := by
  intro i s t hinv hi ht
  have h := hinv.ranges
  have latch : ∀ x, i = .txIterReady x → selectedByTxsel i s = true → s.unread.head? = some t.fr := by
    rintro x rfl hsel
    exact txIterReady_latches_head h hsel ht
  cases exec_ring s hi t ht with
  | keep wr rd slots =>
    exact ⟨fun hne => absurd wr hne, fun hne => absurd rd hne, fun _ _ => unread_of_keep h wr rd slots, latch⟩
  | commit _ wr rd slots =>
    exact ⟨fun _ hfree => unread_of_commit h wr rd slots hfree, fun hne => absurd rd hne,
      fun heq => absurd (wr.symm.trans heq) (incCap_ne s.wr), latch⟩
  | advance _ wr rd slots =>
    exact ⟨fun hne => absurd wr hne,
      fun _ hsome => unread_of_advance h wr rd slots (mt (unread_eq_nil_iff s).mpr hsome),
      fun _ heq => absurd (rd.symm.trans heq) (incCap_ne s.rd), latch⟩

/-! ### The forty-second unread packet -/

/-- 44_async_receiver.md R193: a stop condition commits 1 to 4 stored bytes. -/
theorem exec_rxStop_commit {s : State} (x : Byte) (hwr : slotExists s.wr = true) (hovf : s.rxOvf = false)
    (hoff : 1 ≤ s.rxOff.toNat) :
    exec (.rxStop x) s = .next { s.commit (usageOfOffset s.rxOff) with rxOff := 0 } := by
  rw [exec, execRxStop, if_neg (by simp [hovf]), if_neg (by omega), withSlot_exists hwr]

/-- 44_async_receiver.md R192: a data byte is stored while the slot has room. -/
theorem exec_rxData_store {s : State} (d : Byte) (hwr : slotExists s.wr = true) (hoff : s.rxOff.toNat < Config.slotBytes) :
    exec (.rxData d) s = .next ((s.appendByte d).emit .rel) := by
  rw [exec, execRxData, if_pos hoff, withSlot_exists hwr]

/-- With 41 unread packets the write cursor stands one slot before the read cursor. -/
theorem incCap_wr_of_avail {s : State} (h : s.Ranges) (hfull : s.avail = 41) : incCap s.wr = s.rd := by
  have hwr := slotExists_iff.mp h.wr
  have hrd := slotExists_iff.mp h.rd
  apply BitVec.eq_of_toNat_eq
  rw [avail_eq] at hfull
  rw [incCap_toNat]
  omega

/-- 43_packet_ring.md R175: from 41 unread packets a commit makes the cursors meet. -/
theorem rxStop_meets_rd {s : State} (x : Byte) (h : s.Inv) (hfull : s.avail = 41) (hovf : s.rxOvf = false)
    (hoff : 1 ≤ s.rxOff.toNat) :
    ∃ t, exec (.rxStop x) s = .next t ∧ t.Inv ∧ t.wr = s.rd ∧ t.rd = s.rd ∧ t.rxOff = 0 :=
  ⟨_, exec_rxStop_commit x h.ranges.wr hovf hoff, h.commitPacket _ (by simp [hovf]),
    incCap_wr_of_avail h.ranges hfull, rfl, rfl⟩

/-- 44_async_receiver.md R192: the first data byte of a packet is byte 0 of the slot at the write cursor. -/
theorem rxData_stores_b0 {s : State} (d : Byte) (h : s.Inv) (hoff : s.rxOff = 0) :
    ∃ t, exec (.rxData d) s = .next t ∧ t.mem.read (cellAddr s.wr .b0) = d := by
  refine ⟨_, exec_rxData_store d h.ranges.wr (by rw [hoff]; decide), ?_⟩
  rw [State.emit_mem, State.appendByte_mem, hoff]
  exact Memory.read_write_wf h.mem_wf

/-- Settles O34: after the commit the cursors meet, and the next byte goes to the slot at both (R175). -/
theorem fortySecondCommitMakesTheRingLookEmpty : Obligations.FortySecondCommitMakesTheRingLookEmpty := by
  intro s x d hinv hfull hovf hoff
  obtain ⟨t, hstop, htinv, hwr, hrd, hoff0⟩ := rxStop_meets_rd x hinv hfull hovf hoff
  obtain ⟨u, hdata, hread⟩ := rxData_stores_b0 d htinv hoff0
  have hmeet : t.rd = t.wr := hrd.trans hwr.symm
  refine ⟨t, u, hstop, by simp [State.ready, hmeet], ?unread, hwr, hdata, hwr ▸ hread⟩
  case unread => exact (unread_eq_nil_iff t).mpr ((avail_eq_zero_iff htinv.ranges).mpr hmeet)

end Sys2Proof.Machine
end

section
/-! 44_async_receiver.md: the receiver. Each event's effect is said once. What a packet's data bytes leave behind before the
stop condition is `Received`, kept by every event inside a packet; the stop condition then commits what was received (R197)
or discards it whole (R194). -/

namespace Sys2Proof.Machine

/-! ### The four events -/

/-- Settles O35: releasing is the whole operation (R191). -/
theorem addressByteOnlyReleases : Obligations.AddressByteOnlyReleases := fun _ _ => rfl

/-- Settles O38: the operation answers the state it is given (R196). -/
theorem reservedEventChangesNothing : Obligations.ReservedEventChangesNothing := fun _ _ => rfl

/-- 44_async_receiver.md R192: with the slot full the byte is dropped and the packet marked. -/
theorem exec_rxData_drop {s : State} (d : Byte) (hoff : ¬s.rxOff.toNat < Config.slotBytes) :
    exec (.rxData d) s = .next (State.emit .rel { s with rxOvf := true }) :=
  if_neg hoff

/-- 44_async_receiver.md R193: a marked packet is discarded. -/
theorem exec_rxStop_discard {s : State} (x : Byte) (hovf : s.rxOvf = true) : exec (.rxStop x) s = .next s.restartPacket :=
  if_pos hovf

/-- 44_async_receiver.md R195: a stop condition with no data byte is ignored. -/
theorem exec_rxStop_ignore {s : State} (x : Byte) (hovf : s.rxOvf = false) (hoff : s.rxOff = 0) :
    exec (.rxStop x) s = .next s := by
  rw [exec, execRxStop, if_neg (by simp [hovf]), if_pos (by simp [hoff])]

/-- Storing a byte moves the offset on by one: below 4 it does not wrap. -/
theorem appendByte_rxOff_toNat {s : State} (d : Byte) (hoff : s.rxOff.toNat < Config.slotBytes) :
    (s.appendByte d).rxOff.toNat = s.rxOff.toNat + 1 := by
  rw [State.appendByte_rxOff]
  simp only [Config.slotBytes] at hoff
  bv_omega

/-- 30_encoding.md R102 (d): the usage count of 1 to 4 bytes is their number minus one. -/
theorem usageOfOffset_toNat {off : Offset} (hpos : 1 ≤ off.toNat) (hle : off.toNat ≤ 4) :
    (usageOfOffset off).toNat = off.toNat - 1 := by
  simp only [usageOfOffset, BitVec.toNat_setWidth]
  bv_omega

/-- Settles O36: the byte is stored below offset 4 (`writeByte_spec`) and dropped at it. -/
theorem dataByteIsStoredOrDropped : Obligations.DataByteIsStoredOrDropped := by
  intro d s
  refine ⟨fun hoff hmem hwr => ?stored, fun hoff => exec_rxData_drop d (Nat.not_lt.mpr hoff)⟩
  case stored =>
    have hslot := slotExists_iff.mpr hwr
    obtain ⟨-, hread, hother⟩ := writeByte_spec (k := s.rxOff.toNat) (d := d) hmem hslot
    exact ⟨_, exec_rxData_store d hslot hoff, rfl, appendByte_rxOff_toNat d hoff, hread, hother⟩

/-- Settles O37: the three branches of R193. -/
theorem stopCommitsDiscardsOrIgnores : Obligations.StopCommitsDiscardsOrIgnores := by
  intro x s
  refine ⟨exec_rxStop_discard x, exec_rxStop_ignore x, fun hovf hpos hle hmem hwr => ?commit⟩
  case commit =>
    have hslot := slotExists_iff.mpr hwr
    obtain ⟨-, -, hother⟩ := writeUsage_spec (u := usageOfOffset s.rxOff) hmem hslot
    refine ⟨_, exec_rxStop_commit x hslot hovf hpos, rfl, incCap_toNat s.wr, ?usage, hother⟩
    case usage =>
      exact (congrArg BitVec.toNat (readSlot_uc_writeUsage _ hmem)).trans (usageOfOffset_toNat hpos hle)

/-! ### Flow control -/

/-- The flow-control releases an operation emits: one for a byte (R191, R192). -/
def releasedBy : Instr → Nat
  | .rxAddr _ | .rxData _ => 1
  | _ => 0

theorem releases_append (tr evs : List Event) : releases (tr ++ evs) = releases tr + releases evs :=
  List.countP_append

theorem releases_append_rel (tr : List Event) : releases (tr ++ [.rel]) = releases tr + 1 := releases_append tr [.rel]

theorem releases_append_kick (tr : List Event) : releases (tr ++ [.kick]) = releases tr := releases_append tr [.kick]

theorem countTick_releases (s : State) : releases s.countTick.trace = releases s.trace := by
  obtain ⟨-, ht⟩ | ⟨-, ht⟩ := countTick_cases s
  · rw [ht]
    exact releases_append s.trace [.tog (s.now + 1) (!s.pin)]
  · rw [ht]

/-- What every operation but a reset, which empties the trace, adds to the releases. -/
theorem exec_releases {i : Instr} (s : State) (hi : i ≠ .envReset) :
    AllNext (fun t => releases t.trace = releases s.trace + releasedBy i) (exec i s) := by
  cases i with
  | envReset => exact absurd rfl hi
  | symRsvd => exact allNext_refused _
  -- the bytes: stored or dropped, each is released
  | rxAddr a => exact allNext_next (releases_append_rel s.trace)
  | rxData d =>
    exact allNext_ite (fun _ => allNext_withSlot fun _ => releases_append_rel s.trace)
      fun _ => allNext_next (releases_append_rel s.trace)
  -- operations that record another event
  | wsTick => exact allNext_next (countTick_releases s)
  | txIterHalted | txIterEmpty => exact allNext_guard rfl fun _ => allNext_next (releases_append_kick s.trace)
  | txIterReady => exact allNext_guard rfl fun _ => allNext_withSlot fun _ => releases_append_kick s.trace
  -- operations that record nothing
  | wsAdv | beZero | beOne | bePause | fbFrame1 | fbFrame2 | fbFrame3 | fbFrame4 => exact allNext_next rfl
  | ringTrynext | rxRsvd | envEnable => exact allNext_next rfl
  | ringAdvread | ringCommit => exact allNext_withSlot fun _ => rfl
  | rxStop =>
    exact allNext_ite (fun _ => allNext_next rfl) fun _ =>
      allNext_ite (fun _ => allNext_next rfl) fun _ => allNext_withSlot fun _ => rfl
  | wsWait | txWait | txHalt | uopAdv => exact allNext_guard rfl fun _ => allNext_next rfl
  | uopAdvread => exact allNext_guard rfl fun _ => allNext_withSlot fun _ => rfl
  | txRunAdv x => exact allNext_txRunAdv x rfl fun _ _ _ _ => rfl
  | txRunAdvread x => exact allNext_txRunAdvread x rfl fun _ _ _ _ => rfl
  | txRunEnd x1 x0 => exact allNext_txRunEnd x1 x0 rfl fun _ _ => rfl

theorem releasedBy_of_not_byte {i : Instr} (h : ∀ b, i ≠ .rxAddr b ∧ i ≠ .rxData b) : releasedBy i = 0 := by
  unfold releasedBy
  split
  case h_1 b => exact absurd rfl (h b).1
  case h_2 b => exact absurd rfl (h b).2
  case h_3 => rfl

/-- Settles O51, by `exec_releases`. -/
theorem oneReleasePerByte : Obligations.OneReleasePerByte := by
  intro i s t hi ht
  have h := exec_releases s hi t ht
  refine ⟨?byte, fun hno => ?other⟩
  case byte => rintro ⟨b, rfl | rfl⟩ <;> exact h
  case other => rwa [releasedBy_of_not_byte hno] at h

/-! ### The four bytes of a slot -/

theorem Field.code_byte {k : Nat} (hk : k < 4) : (Field.byte k).code = k := by
  interval_cases k <;> rfl

theorem Field.byte_inj {j k : Nat} (hj : j < 4) (hk : k < 4) (h : Field.byte j = Field.byte k) : j = k := by
  rw [← Field.code_byte hj, h, Field.code_byte hk]

theorem Field.byte_ne_uc {k : Nat} (hk : k < 4) : Field.byte k ≠ .uc := fun h => by
  have hcode : k = 4 := (Field.code_byte hk).symm.trans (congrArg Field.code h)
  omega

/-- The bytes `b[0]` to `b[3]` of a slot, valid or not. -/
def storedBytes (m : Memory) (i : Cursor) : List Byte := (List.range 4).map fun k => m.read (cellAddr i (Field.byte k))

@[simp] theorem storedBytes_length (m : Memory) (i : Cursor) : (storedBytes m i).length = 4 := by
  simp [storedBytes]

theorem storedBytes_eq (m : Memory) (i : Cursor) :
    storedBytes m i = [(readSlot m i).b0, (readSlot m i).b1, (readSlot m i).b2, (readSlot m i).b3] := rfl

/-- 10_state.md R25: the usage count says how many of the four are valid. -/
theorem validBytes_readSlot (m : Memory) (i : Cursor) :
    validBytes (readSlot m i) = (storedBytes m i).take ((readSlot m i).uc.toNat + 1) := rfl

theorem storedBytes_writeUsage {m : Memory} {i : Cursor} {u : Usage} :
    storedBytes (writeUsage m i u) i = storedBytes m i :=
  List.map_congr_left fun _ hk => Memory.read_write_other fun he =>
    Field.byte_ne_uc (List.mem_range.mp hk) (cellAddr_inj he).2

theorem storedBytes_writeByte {m : Memory} {i : Cursor} {k : Nat} {d : Byte} (h : Memory.wf m = true) (hk : k < 4) :
    storedBytes (writeByte m i k d) i = (storedBytes m i).set k d := by
  refine List.ext_getElem (by simp) fun j hj _ => ?_
  rw [storedBytes_length] at hj
  simp only [storedBytes, List.getElem_set, List.getElem_map, List.getElem_range]
  split
  case isTrue he =>
    subst he
    exact Memory.read_write_wf h
  case isFalse hne =>
    exact Memory.read_write_other fun he => hne (Field.byte_inj hk hj (cellAddr_inj he).2.symm)

/-- Setting the element after the first n and taking it in as well puts it at their end. -/
theorem take_succ_set {l : List Byte} {n : Nat} (d : Byte) (h : n < l.length) :
    (l.set n d).take (n + 1) = l.take n ++ [d] := by
  rw [List.take_succ_eq_append_getElem (by simpa using h), List.take_set_of_le (le_refl n), List.getElem_set_self]

/-! ### A packet in progress -/

/-- What the data bytes ds of a packet that began in state s have left in state t: the first four stand in the slot at the
write cursor (R192), a fifth has marked the packet (R194), and no other cell and no cursor has changed. -/
structure Received (s : State) (ds : List Byte) (t : State) : Prop where
  inv : t.Inv
  wr : t.wr = s.wr
  rd : t.rd = s.rd
  off : t.rxOff.toNat = min ds.length 4
  ovf : t.rxOvf = decide (4 < ds.length)
  stored : (storedBytes t.mem s.wr).take ds.length = ds.take 4
  others : ∀ a, (∀ k, k < 4 → a ≠ cellAddr s.wr (Field.byte k)) → t.mem.read a = s.mem.read a

section
variable {s t : State} {ds : List Byte}

/-- A packet begins with nothing received. -/
theorem Received.start (hinv : s.Inv) (hoff : s.rxOff = 0) (hovf : s.rxOvf = false) : Received s [] s where
  inv := hinv
  wr := rfl
  rd := rfl
  off := by rw [hoff]; rfl
  ovf := hovf
  stored := rfl
  others _ _ := rfl

/-- The trace is not part of what was received. -/
theorem Received.emit (h : Received s ds t) (e : Event) : Received s ds (t.emit e) := { h with inv := h.inv }

theorem Received.off_lt_iff (h : Received s ds t) : t.rxOff.toNat < Config.slotBytes ↔ ds.length < 4 := by
  rw [h.off]
  simp

theorem Received.appendByte (h : Received s ds t) (d : Byte) (hoff : t.rxOff.toNat < Config.slotBytes) :
    Received s (ds ++ [d]) (t.appendByte d) := by
  have hlt := h.off_lt_iff.mp hoff
  have hlen : t.rxOff.toNat = ds.length := h.off.trans (Nat.min_eq_left hlt.le)
  have hmem : (t.appendByte d).mem = writeByte t.mem s.wr ds.length d := by rw [State.appendByte_mem, h.wr, hlen]
  refine ⟨h.inv.appendByte d hoff, h.wr, h.rd, ?off, ?ovf, ?stored, fun a ha => ?others⟩
  case off => rw [appendByte_rxOff_toNat d hoff, hlen, List.length_append, List.length_singleton, Nat.min_eq_left hlt]
  case ovf =>
    rw [State.appendByte_rxOvf, h.ovf, decide_eq_decide, List.length_append, List.length_singleton]
    omega
  case stored =>
    rw [hmem, storedBytes_writeByte h.inv.mem_wf hlt, List.length_append, List.length_singleton,
      take_succ_set d (by simpa using hlt), h.stored, List.take_of_length_le hlt.le,
      List.take_of_length_le (by simpa using hlt)]
  case others =>
    rw [hmem]
    exact (Memory.read_write_other (ha _ hlt)).trans (h.others a ha)

theorem Received.dropByte (h : Received s ds t) (d : Byte) (hoff : ¬t.rxOff.toNat < Config.slotBytes) :
    Received s (ds ++ [d]) { t with rxOvf := true } := by
  have hge : 4 ≤ ds.length := Nat.not_lt.mp (mt h.off_lt_iff.mpr hoff)
  have hlen : (ds ++ [d]).length = ds.length + 1 := List.length_append
  refine ⟨h.inv.dropByte hoff, h.wr, h.rd, ?off, ?ovf, ?stored, h.others⟩
  case off => rw [h.off, hlen]; omega
  case ovf => rw [hlen]; exact (decide_eq_true (by omega)).symm
  case stored =>
    have hfull : ∀ n, 4 ≤ n → (storedBytes t.mem s.wr).take n = storedBytes t.mem s.wr := fun n hn =>
      List.take_of_length_le (by simpa using hn)
    rw [List.take_append_of_le_length hge, ← h.stored, hfull _ hge, hfull _ (by omega)]

theorem insidePacket_append {l₁ l₂ : List Instr} : insidePacket (l₁ ++ l₂) ↔ insidePacket l₁ ∧ insidePacket l₂ :=
  List.forall_mem_append

theorem dataBytes_append (l₁ l₂ : List Instr) : dataBytes (l₁ ++ l₂) = dataBytes l₁ ++ dataBytes l₂ :=
  List.filterMap_append

/-- An event inside a packet adds its data byte, if it is one, to what was received. -/
theorem Received.exec_event {i : Instr} (h : Received s ds t) (hi : insidePacket [i]) :
    ∃ u, exec i t = .next u ∧ Received s (ds ++ dataBytes [i]) u := by
  have hi := hi i (List.mem_singleton_self i)
  cases i <;> cases hi
  case rxAddr a => exact ⟨_, rfl, (List.append_nil ds).symm ▸ h.emit .rel⟩
  case rxData d =>
    by_cases hoff : t.rxOff.toNat < Config.slotBytes
    · exact ⟨_, exec_rxData_store d h.inv.ranges.wr hoff, (h.appendByte d hoff).emit .rel⟩
    · exact ⟨_, exec_rxData_drop d hoff, (h.dropByte d hoff).emit .rel⟩
  case rxRsvd x => exact ⟨t, rfl, (List.append_nil ds).symm ▸ h⟩

theorem Received.run {l : List Instr} (h : Received s ds t) (hl : insidePacket l) :
    ∃ u, runOps l t = .next u ∧ Received s (ds ++ dataBytes l) u := by
  induction l generalizing ds t with
  | nil => exact ⟨t, rfl, (List.append_nil ds).symm ▸ h⟩
  | cons i l ih =>
    obtain ⟨hi, hl⟩ := insidePacket_append (l₁ := [i]).mp hl
    obtain ⟨u, hexec, hu⟩ := h.exec_event hi
    obtain ⟨v, hrun, hv⟩ := ih hu hl
    rw [List.append_assoc, ← dataBytes_append] at hv
    exact ⟨v, (runOps_cons hexec).trans hrun, hv⟩

/-! ### The stop condition -/

/-- The slot at the write cursor is not among the unread ones, so the queue is as it was. -/
theorem Received.unread (h : Received s ds t) (hs : s.Ranges) : t.unread = s.unread :=
  unread_of_keep hs h.wr h.rd fun _ hj => readSlot_congr fun _ =>
    h.others _ fun _ _ he => hj (cellAddr_inj he).1

theorem Received.stop_commits (h : Received s ds t) (x : Byte) (hpos : 1 ≤ ds.length) (hle : ds.length ≤ 4) :
    exec (.rxStop x) t = .next { t.commit (usageOfOffset t.rxOff) with rxOff := 0 } := by
  refine exec_rxStop_commit x h.inv.ranges.wr ?ovf ?off
  case ovf => rw [h.ovf]; exact decide_eq_false (by omega)
  case off => rw [h.off]; omega

theorem Received.stop_discards (h : Received s ds t) (x : Byte) (hover : 5 ≤ ds.length) :
    exec (.rxStop x) t = .next t.restartPacket :=
  exec_rxStop_discard x (h.ovf.trans (decide_eq_true hover))

/-- What the commit makes valid is what was received. -/
theorem Received.validBytes_commit (h : Received s ds t) (hpos : 1 ≤ ds.length) (hle : ds.length ≤ 4) :
    validBytes (readSlot (t.commit (usageOfOffset t.rxOff)).mem s.wr) = ds := by
  have hlen : t.rxOff.toNat = ds.length := h.off.trans (Nat.min_eq_left hle)
  have husage : (usageOfOffset t.rxOff).toNat + 1 = ds.length := by
    rw [usageOfOffset_toNat (by omega) (by omega), hlen]
    omega
  rw [State.commit_mem, h.wr, validBytes_readSlot, readSlot_uc_writeUsage _ h.inv.mem_wf, husage, storedBytes_writeUsage,
    h.stored, List.take_of_length_le hle]

end

/-- Settles O39: the events leave the bytes in the slot (`Received.run`), and the stop condition commits them. -/
theorem transactionMakesOnePacket : Obligations.TransactionMakesOnePacket := by
  intro s l x hinv hoff hovf hl hpos hle
  obtain ⟨u, hrun, hu⟩ := (Received.start hinv hoff hovf).run hl
  rw [List.nil_append] at hu
  refine ⟨_, (runOps_append hrun).trans (runOps_cons (hu.stop_commits x hpos hle)), hu.validBytes_commit hpos hle,
    congrArg incCap hu.wr, rfl, hu.ovf.trans (decide_eq_false (by omega)), fun a ha => ?others⟩
  case others =>
    exact (Memory.read_write_other (hu.wr ▸ ha .uc)).trans (hu.others a fun _ _ => ha _)

/-- Settles O40: the fifth byte has marked the packet, and discarding it resets the receiver alone. -/
theorem overlongPacketIsDiscardedWhole : Obligations.OverlongPacketIsDiscardedWhole := by
  intro s l x hinv hoff hovf hl hover
  obtain ⟨u, hrun, hu⟩ := (Received.start hinv hoff hovf).run hl
  rw [List.nil_append] at hu
  refine ⟨_, (runOps_append hrun).trans (runOps_cons (hu.stop_discards x hover)), hu.wr, rfl, rfl,
    hu.unread hinv.ranges, ?bytes, hu.others⟩
  case bytes =>
    rw [← hu.stored, List.take_of_length_le (by simp; omega)]
    exact storedBytes_eq u.mem s.wr

end Sys2Proof.Machine
end

section
/-! 45_control_loop.md: the control loop. Each of its steps has its one effect in the states its guard names; of the eight,
the three that begin an iteration are the only ones that kick the watchdog (R217) and that read the level of `enable`
(R218, R219). -/

namespace Sys2Proof.Machine

/-! ### The steps that begin an iteration -/

theorem ready_of_ne {s : State} (h : s.rd ≠ s.wr) : s.ready = true := bne_iff_ne.mpr h

theorem not_ready_of_eq {s : State} (h : s.rd = s.wr) : s.ready = false := bne_eq_false_iff_eq.mpr h

/-- R212: the program of a packet ends in ADVREAD and the pause, which is one ADV. -/
theorem packetProg_eq (c : Config.Params) (p : Slot) :
    packetProg c p = frameProg c (validBytes p) (checksum p) ++ [.advread, .adv c.tPause] := rfl

/-- Settles O42: the guard of the step holds. -/
theorem haltedIterationOnlyKicksAndDelays : Obligations.HaltedIterationOnlyKicksAndDelays := fun _ _ hphase henable =>
  if_pos ⟨hphase, henable⟩

/-- Settles O43: the guard holds, the slot at the read cursor exists, and the program is `packetProg_eq`. -/
theorem readyIterationLatchesAndBuildsTheFrame : Obligations.ReadyIterationLatchesAndBuildsTheFrame := by
  intro s x hphase henable hne hrd
  rw [← packetProg_eq]
  exact (if_pos ⟨hphase, henable, ready_of_ne hne⟩).trans (withSlot_exists (slotExists_iff.mpr hrd))

/-- Settles O44: the guard holds, and the pause is one ADV. -/
theorem emptyIterationBuildsThePause : Obligations.EmptyIterationBuildsThePause := fun _ _ hphase henable heq =>
  if_pos ⟨hphase, henable, not_ready_of_eq heq⟩

/-! ### The steps of a running program -/

theorem runAdv_of_head {s : State} {d : Ticks} {rest : List UOp} (hprog : s.txProg = .adv d :: rest) :
    s.runAdv d = { s with cmp := s.cmp + d, txProg := rest, txPhase := .wait } := by
  simp only [State.runAdv, add16, hprog, List.tail_cons]

theorem runAdvread_of_head {s : State} {rest : List UOp} (hprog : s.txProg = .advread :: rest) :
    s.runAdvread = { s.advanceRead with txProg := rest } := by
  simp only [State.runAdvread, State.advanceRead, hprog, List.tail_cons]

theorem exec_uopAdv_of_head {s : State} {d : Ticks} {rest : List UOp} (hphase : s.txPhase = .run)
    (hprog : s.txProg = .adv d :: rest) : exec (.uopAdv d) s = .next (s.runAdv d) :=
  if_pos ⟨hphase, hprog ▸ rfl⟩

theorem exec_txRunEnd_of_empty {s : State} (x : BitVec 2) (z : BitVec 1) (hphase : s.txPhase = .run)
    (hprog : s.txProg = []) : exec (.txRunEnd x z) s = .next (s.goto .iter) := by
  simp only [exec, execTxRunEnd, hphase, hprog]

theorem exec_txRunAdvread_of_head {s : State} {rest : List UOp} (x : BitVec 2) (hphase : s.txPhase = .run)
    (hprog : s.txProg = .advread :: rest) : exec (.txRunAdvread x) s = withSlot s.rd s.runAdvread := by
  simp only [exec, execTxRunAdvread, hphase, hprog]

theorem exec_uopAdvread_of_head {s : State} {rest : List UOp} (x : BitVec 16) (hphase : s.txPhase = .run)
    (hprog : s.txProg = .advread :: rest) : exec (.uopAdvread x) s = withSlot s.rd s.runAdvread :=
  if_pos ⟨hphase, hprog ▸ rfl⟩

/-- Settles O45: both forms of ADV are `runAdv` of the head, and the empty program ends the iteration. -/
theorem runAdvancesOrEndsTheIteration : Obligations.RunAdvancesOrEndsTheIteration := by
  intro s x z hphase
  refine ⟨fun d rest hprog => ?adv, exec_txRunEnd_of_empty x z hphase⟩
  case adv =>
    rw [← runAdv_of_head hprog]
    exact ⟨exec_txRunAdv_of_head x hphase hprog, exec_uopAdv_of_head hphase hprog⟩

/-- Settles O46: both forms of ADVREAD clear the slot sent (`clearSlot_spec`) and drop the head. -/
theorem runAdvreadClearsTheSlotSent : Obligations.RunAdvreadClearsTheSlotSent := by
  intro s rest i hi hphase hprog hmem hrd
  have hslot := slotExists_iff.mpr hrd
  have hexec : exec i s = withSlot s.rd s.runAdvread := by
    obtain ⟨x, rfl⟩ | ⟨x, rfl⟩ := hi
    · exact exec_txRunAdvread_of_head x hphase hprog
    · exact exec_uopAdvread_of_head x hphase hprog
  rw [runAdvread_of_head hprog, withSlot_exists hslot] at hexec
  obtain ⟨-, hcleared, hother⟩ := clearSlot_spec hmem hslot
  exact ⟨_, hexec, rfl, incCap_toNat s.rd, hcleared, hother⟩

/-! ### The waits -/

/-- Settles O47, by `exec_txWait_of_match`. -/
theorem txWaitConsumesTheMatch : Obligations.TxWaitConsumesTheMatch := fun _ => exec_txWait_of_match

/-- Settles O48: the guard of the step holds. -/
theorem txHaltEndsTheDelay : Obligations.TxHaltEndsTheDelay := fun _ _ hphase hleft => if_pos ⟨hphase, hleft⟩

/-! ### The watchdog -/

theorem kicks_append (tr evs : List Event) : kicks (tr ++ evs) = kicks tr + kicks evs := List.countP_append

theorem kicks_append_kick (tr : List Event) : kicks (tr ++ [.kick]) = kicks tr + 1 := kicks_append tr [.kick]

theorem kicks_append_rel (tr : List Event) : kicks (tr ++ [.rel]) = kicks tr := kicks_append tr [.rel]

theorem countTick_kicks (s : State) : kicks s.countTick.trace = kicks s.trace := by
  obtain ⟨-, ht⟩ | ⟨-, ht⟩ := countTick_cases s
  · rw [ht]
    exact kicks_append s.trace [.tog (s.now + 1) (!s.pin)]
  · rw [ht]

theorem agentOf_of_beginsIteration {i : Instr} (h : beginsIteration i = true) : agentOf i = .tx := by
  cases i <;> cases h <;> rfl

/-- 30_encoding.md R98: TXSEL selects TX_ITER_HALTED in the states that enable it. -/
theorem txselOf_iterHalted {ph : Phase} {e r n a : Bool} (h : txselOf ph e r n a &&& 0b111000 = 0b000000) :
    ph = .iter ∧ e = false := by
  cases ph <;> revert e r n a <;> decide

/-- 30_encoding.md R98: TXSEL selects TX_ITER_EMPTY in the states that enable it. -/
theorem txselOf_iterEmpty {ph : Phase} {e r n a : Bool} (h : txselOf ph e r n a &&& 0b111100 = 0b001000) :
    ph = .iter ∧ e = true ∧ r = false := by
  cases ph <;> revert e r n a <;> decide

/-- R217: a step that begins an iteration kicks once where TXSEL selects it, since its guard holds there. -/
theorem exec_kicks_of_selected {i : Instr} {s : State} (hb : beginsIteration i = true) (hsel : selectedByTxsel i s = true) :
    AllNext (fun t => kicks t.trace = kicks s.trace + 1) (exec i s) := by
  cases i <;> cases hb
  case txIterHalted x =>
    exact allNext_ite (fun _ => allNext_next (kicks_append_kick s.trace))
      fun hno => absurd (txselOf_iterHalted (beq_iff_eq.mp hsel)) hno
  case txIterReady x =>
    exact allNext_ite (fun _ => allNext_withSlot fun _ => kicks_append_kick s.trace)
      fun hno => absurd (txselOf_iterReady (beq_iff_eq.mp hsel)) hno
  case txIterEmpty x =>
    exact allNext_ite (fun _ => allNext_next (kicks_append_kick s.trace))
      fun hno => absurd (txselOf_iterEmpty (beq_iff_eq.mp hsel)) hno

/-- R217: an operation that begins no iteration records no kick; a reset, which empties the trace, is left out. -/
theorem exec_kicks_of_not_begins {i : Instr} (s : State) (hi : i ≠ .envReset) (hb : beginsIteration i = false) :
    AllNext (fun t => kicks t.trace = kicks s.trace) (exec i s) := by
  cases i with
  | envReset => exact absurd rfl hi
  | txIterHalted | txIterReady | txIterEmpty => cases hb
  | symRsvd => exact allNext_refused _
  -- operations that record another event
  | wsTick => exact allNext_next (countTick_kicks s)
  | rxAddr => exact allNext_next (kicks_append_rel s.trace)
  | rxData =>
    exact allNext_ite (fun _ => allNext_withSlot fun _ => kicks_append_rel s.trace)
      fun _ => allNext_next (kicks_append_rel s.trace)
  -- operations that record nothing
  | wsAdv | beZero | beOne | bePause | fbFrame1 | fbFrame2 | fbFrame3 | fbFrame4 => exact allNext_next rfl
  | ringTrynext | rxRsvd | envEnable => exact allNext_next rfl
  | ringAdvread | ringCommit => exact allNext_withSlot fun _ => rfl
  | rxStop =>
    exact allNext_ite (fun _ => allNext_next rfl) fun _ =>
      allNext_ite (fun _ => allNext_next rfl) fun _ => allNext_withSlot fun _ => rfl
  | wsWait | txWait | txHalt | uopAdv => exact allNext_guard rfl fun _ => allNext_next rfl
  | uopAdvread => exact allNext_guard rfl fun _ => allNext_withSlot fun _ => rfl
  | txRunAdv x => exact allNext_txRunAdv x rfl fun _ _ _ _ => rfl
  | txRunAdvread x => exact allNext_txRunAdvread x rfl fun _ _ _ _ => rfl
  | txRunEnd x1 x0 => exact allNext_txRunEnd x1 x0 rfl fun _ _ => rfl

/-- Settles O50: a step that begins an iteration kicks once if it is selected, and is not taken if it is not. -/
theorem oneKickPerIteration : Obligations.OneKickPerIteration := by
  intro i s t hi ht
  cases hb : beginsIteration i with
  | false => exact exec_kicks_of_not_begins s hi hb t ht
  | true =>
    cases hsel : selectedByTxsel i s with
    | true => exact exec_kicks_of_selected hb hsel t ht
    | false =>
      have hstay := exec_of_not_selected (agentOf_of_beginsIteration hb) hsel
      obtain rfl := Host.Outcome.next.inj (hstay.symm.trans ht)
      rfl

/-! ### The enable level -/

/-- Settles O53: setting the level is the whole operation (R218). -/
theorem envEnableSetsOnlyTheLevel : Obligations.EnvEnableSetsOnlyTheLevel := fun _ _ => rfl

/-- The state with the level v on the input `enable`. -/
def State.withEnable (v : Bool) (s : State) : State := { s with enable := v }

theorem mapNext_ite {f : State → State} {p : Prop} [Decidable p] {a b a' b' : Result} (ha : a' = mapNext f a)
    (hb : b' = mapNext f b) : (if p then a' else b') = mapNext f (if p then a else b) := by
  split
  · exact ha
  · exact hb

theorem mapNext_withSlot {f : State → State} {i : Cursor} {t u : State} (h : u = f t) :
    withSlot i u = mapNext f (withSlot i t) :=
  mapNext_ite (congrArg Host.Outcome.next h) rfl

/-- Each step that begins an iteration asks for the phase ITER. -/
theorem exec_of_begins_of_not_iter {i : Instr} {s : State} (hb : beginsIteration i = true) (hphase : s.txPhase ≠ .iter) :
    exec i s = .next s := by
  cases i <;> cases hb
  all_goals exact guard_noStep fun ⟨hiter, _⟩ => hphase hiter

section
variable (v : Bool) (s : State)

theorem countTick_withEnable : (s.withEnable v).countTick = s.countTick.withEnable v := by
  by_cases hm : matchAt (s.cnt + 1) s.cmp = true
  all_goals simp only [State.countTick, State.withEnable, hm]; rfl

theorem execTxRunAdv_withEnable (x : BitVec 2) :
    execTxRunAdv x (s.withEnable v) = mapNext (State.withEnable v) (execTxRunAdv x s) := by
  simp only [execTxRunAdv, State.withEnable]
  split <;> rfl

theorem execTxRunAdvread_withEnable (x : BitVec 2) :
    execTxRunAdvread x (s.withEnable v) = mapNext (State.withEnable v) (execTxRunAdvread x s) := by
  simp only [execTxRunAdvread, State.withEnable]
  split
  · exact mapNext_withSlot rfl
  · rfl

theorem execTxRunEnd_withEnable (x1 : BitVec 2) (x0 : BitVec 1) :
    execTxRunEnd x1 x0 (s.withEnable v) = mapNext (State.withEnable v) (execTxRunEnd x1 x0 s) := by
  simp only [execTxRunEnd, State.withEnable]
  split <;> rfl

/-- R219: no operation but those that begin an iteration reads the level, and only ENV_ENABLE sets it. -/
theorem exec_withEnable {i : Instr} (hb : beginsIteration i = false) (hi : ∀ e, i ≠ .envEnable e) :
    exec i (s.withEnable v) = mapNext (State.withEnable v) (exec i s) := by
  cases i with
  | txIterHalted | txIterReady | txIterEmpty => cases hb
  | envEnable e => exact absurd rfl (hi e)
  | wsTick => exact congrArg (Host.Outcome.next ∘ State.countDelay) (countTick_withEnable v s)
  -- operations without a guard
  | wsAdv | beZero | beOne | bePause | symRsvd | fbFrame1 | fbFrame2 | fbFrame3 | fbFrame4 | ringTrynext => rfl
  | rxAddr | rxRsvd | envReset => rfl
  -- operations whose guard and slot are read off other registers
  | wsWait | txWait | txHalt | uopAdv => exact mapNext_ite rfl rfl
  | ringAdvread | ringCommit => exact mapNext_withSlot rfl
  | rxData => exact mapNext_ite (mapNext_withSlot rfl) rfl
  | rxStop => exact mapNext_ite rfl (mapNext_ite rfl (mapNext_withSlot rfl))
  | uopAdvread => exact mapNext_ite (mapNext_withSlot rfl) rfl
  | txRunAdv x => exact execTxRunAdv_withEnable v s x
  | txRunAdvread x => exact execTxRunAdvread_withEnable v s x
  | txRunEnd x1 x0 => exact execTxRunEnd_withEnable v s x1 x0

end

/-- Settles O52: outside ITER a step that begins an iteration is not taken, whatever the level; every other operation does
not read it. -/
theorem enableIsReadOnlyWhenAnIterationBegins : Obligations.EnableIsReadOnlyWhenAnIterationBegins := by
  intro i s v hbegin hi
  cases hb : beginsIteration i with
  | false => exact exec_withEnable v s hb hi
  | true =>
    have hphase : s.txPhase ≠ .iter := hbegin.resolve_left (by simp [hb])
    rw [exec_of_begins_of_not_iter hb hphase]
    exact exec_of_begins_of_not_iter (s := s.withEnable v) hb hphase

end Sys2Proof.Machine
end

section
/-! 60_exceptions.md: what stands where other hardware takes exceptions. No operation faults (R230); the handler of a bus
event saves nothing and returns to where it interrupted (R235, R236), and may come before a tick or after it (R234); and of
the conditions R231 names a receiver step shows at most one, which its event and the receiver's registers decide. -/

namespace Sys2Proof.Machine

/-! ### Every operation is total -/

/-- Settles O14: there is no fault to answer, and in range both cursors name slots (`exec_answers`). -/
theorem everyOperationIsTotalInRange : Obligations.EveryOperationIsTotalInRange := by
  refine ⟨fun _ _ => nofun, fun i s hr hi => ?_⟩
  obtain ⟨hwr, hrd⟩ := slotExists_of_inRange hr
  exact exec_answers hwr hrd hi

/-! ### Where the handler returns to -/

/-- 30_encoding.md R98: a step that begins an iteration is selected in the phase ITER only. -/
theorem iter_of_begins_of_selected {i : Instr} {s : State} (hb : beginsIteration i = true)
    (hsel : selectedByTxsel i s = true) : s.txPhase = .iter := by
  cases i <;> cases hb
  case txIterHalted x => exact (txselOf_iterHalted (beq_iff_eq.mp hsel)).1
  case txIterReady x => exact (txselOf_iterReady (beq_iff_eq.mp hsel)).1
  case txIterEmpty x => exact (txselOf_iterEmpty (beq_iff_eq.mp hsel)).1

/-- 30_encoding.md R98: only the patterns of the steps that begin an iteration fix the bit `ready`. -/
theorem txselPattern_skips_ready {i : Instr} {p : BitVec 6 × BitVec 6} (hb : beginsIteration i = false)
    (hp : txselPattern i = some p) : 0b111011 &&& p.1 = p.1 := by
  cases i <;> cases hb <;> cases hp <;> decide

/-- Under a mask that leaves the bit `ready` out, the word does not depend on it. -/
theorem txselOf_and_of_skips_ready {m : BitVec 6} (hm : 0b111011 &&& m = m) (ph : Phase) (e r r' n a : Bool) :
    txselOf ph e r n a &&& m = txselOf ph e r' n a &&& m := by
  have agree : txselOf ph e r n a &&& 0b111011 = txselOf ph e r' n a &&& 0b111011 := by
    cases ph <;> revert e r r' n a <;> decide
  rw [← hm, ← BitVec.and_assoc, agree, BitVec.and_assoc]

/-- 30_encoding.md R98: which step TXSEL selects depends on the sequencer and the level; on the ring only through `ready`, and
on that only in the phase ITER. -/
theorem selectedByTxsel_congr {s t : State} (hphase : t.txPhase = s.txPhase) (hprog : t.txProg = s.txProg)
    (henable : t.enable = s.enable) (hready : s.txPhase ≠ .iter ∨ t.ready = s.ready) (i : Instr) :
    selectedByTxsel i t = selectedByTxsel i s := by
  have hword : txselWord t = txselOf s.txPhase s.enable t.ready s.nonempty s.headAdvread := by
    rw [txselWord_eq, State.nonempty, State.headAdvread, hphase, hprog, henable, State.nonempty, State.headAdvread]
  rcases hready with hiter | hready
  case inr => rw [selectedByTxsel_eq, selectedByTxsel_eq, hword, hready, ← txselWord_eq]
  case inl =>
    cases hb : beginsIteration i with
    | true =>
      have unselected {u : State} (hu : u.txPhase = s.txPhase) : selectedByTxsel i u = false :=
        Bool.eq_false_iff.mpr fun hsel => hiter (hu ▸ iter_of_begins_of_selected hb hsel)
      rw [unselected hphase, unselected rfl]
    | false =>
      unfold selectedByTxsel
      split
      case h_1 mask value hp =>
        rw [hword, txselWord_eq, txselOf_and_of_skips_ready (txselPattern_skips_ready hb hp)]
      case h_2 => rfl

/-- Settles O41: what a receiver step writes is not the control loop's (`exec_rx_owns`), and of what it writes TXSEL reads the
write cursor only. -/
theorem handlerReturnsToWhereItInterrupted : Obligations.HandlerReturnsToWhereItInterrupted := by
  intro i s t hi ht
  obtain ⟨howns, -⟩ := exec_rx_owns s hi t ht
  rw [howns]
  refine ⟨⟨rfl, rfl, rfl, rfl, rfl, rfl, rfl⟩, fun hcursor => selectedByTxsel_congr rfl rfl rfl (hcursor.imp_right ?_)⟩
  intro (hwr : t.wr = s.wr)
  simp only [State.ready, hwr]

/-! ### A bus event and a tick -/

theorem countTick_of_match {s : State} (h : s.cnt + 1 = s.cmp) :
    s.countTick = { s with cnt := s.cnt + 1
                           now := s.now + 1
                           mf := true
                           pin := !s.pin
                           trace := s.trace ++ [.tog (s.now + 1) (!s.pin)] } :=
  if_pos (beq_iff_eq.mpr h)

theorem countTick_of_no_match {s : State} (h : s.cnt + 1 ≠ s.cmp) :
    s.countTick = { s with cnt := s.cnt + 1, now := s.now + 1 } :=
  if_neg (mt beq_iff_eq.mp h)

/-- The tick reads nothing the receiver writes, and only a match records an event. -/
theorem exec_wsTick_carries (q : RxEffect) (s : State) : Carries q (exec .wsTick (q.apply s)) (exec .wsTick s) := by
  refine carries_next ?_
  by_cases hm : s.cnt + 1 = s.cmp
  · rw [countTick_of_match hm, countTick_of_match (s := q.apply s) hm]
    refine ⟨rfl, ?_⟩
    simpa only [RxEffect.apply, State.countDelay, List.append_assoc] using
      (List.perm_append_comm (l₁ := q.events)).append_left s.trace
  · rw [countTick_of_no_match hm, countTick_of_no_match (s := q.apply s) hm]
    exact ⟨rfl, .refl _⟩

/-- A tick leaves the receiver's effect as it is. -/
theorem exec_rx_after_wsTick {e : Instr} {s b : State} (he : agentOf e = .rx) (hwr : slotExists s.wr = true)
    (hb : exec .wsTick s = .next b) : exec e b = .next ((rxEffect e s.rxOff s.rxOvf s.wr).apply b) := by
  obtain ⟨howns, -⟩ := exec_hw_owns s rfl b hb
  rw [howns]
  exact exec_rx he hwr

/-- Settles O58: the receiver's effect is the same before and after the tick, and the tick is carried through it. -/
theorem receiverAndTickCommute : Obligations.ReceiverAndTickCommute := by
  intro e s hr he
  obtain ⟨hwr, -⟩ := slotExists_of_inRange hr
  obtain ⟨a, b, ha, hb, hsame, hperm⟩ := exec_wsTick_carries (rxEffect e s.rxOff s.rxOvf s.wr) s
  refine ⟨a, _, ?_, ?_, hsame, hperm⟩
  · rw [runOps_cons (exec_rx he hwr), runOps_cons ha, runOps_nil]
  · rw [runOps_cons hb, runOps_cons (exec_rx_after_wsTick he hwr hb), runOps_nil]

/-! ### The conditions a receiver step can show -/

/-- A receiver step from s to t wrote to the ring: it moved the write cursor or stored a byte (R231, `E_OVERRUN`). -/
def WritesRing (s t : State) : Prop := t.wr ≠ s.wr ∨ t.rxOff.toNat = s.rxOff.toNat + 1

theorem not_writesRing {s t : State} (hwr : t.wr = s.wr) (hoff : t.rxOff = s.rxOff ∨ t.rxOff = 0) : ¬WritesRing s t := by
  rintro (hne | hsucc)
  · exact hne hwr
  · rcases hoff with hoff | hoff <;> simp [hoff] at hsucc

/-- The two receiver steps that write to the ring, with what they do (44_async_receiver.md R192, R193). -/
inductive RxWrite (i : Instr) (s t : State) : Prop where
  /-- a data byte is stored -/
  | store (d : Byte) (event : i = .rxData d) (room : s.rxOff.toNat < Config.slotBytes)
      (effect : t = (s.appendByte d).emit .rel)
  /-- a stop condition commits the packet -/
  | commit (x : Byte) (event : i = .rxStop x) (unmarked : s.rxOvf = false) (some_byte : s.rxOff.toNat ≠ 0)
      (effect : t = { s.commit (usageOfOffset s.rxOff) with rxOff := 0 })

theorem exec_rx_write {i : Instr} (s : State) (hi : agentOf i = .rx) :
    AllNext (fun t => WritesRing s t → RxWrite i s t) (exec i s) := by
  have stay : WritesRing s s → RxWrite i s s := fun h => absurd h (not_writesRing rfl (.inl rfl))
  cases i <;> cases hi
  case rxAddr a => exact allNext_next fun h => absurd h (not_writesRing rfl (.inl rfl))
  case rxData d =>
    exact allNext_ite (fun room => allNext_withSlot fun _ _ => .store d rfl room rfl)
      fun _ => allNext_next fun h => absurd h (not_writesRing rfl (.inl rfl))
  case rxStop x =>
    exact allNext_ite (fun _ => allNext_next fun h => absurd h (not_writesRing rfl (.inr rfl))) fun unmarked =>
      allNext_ite (fun _ => allNext_next stay) fun some_byte =>
        allNext_withSlot fun _ _ => .commit x rfl (Bool.eq_false_iff.mpr unmarked) some_byte rfl
  case rxRsvd x => exact allNext_next stay

/-- R231: an overrun is a write to the ring. -/
theorem rxWrite_of_isOverrun {full : Bool} {i : Instr} {s t : State} (h : isOverrun full i s) (ht : exec i s = .next t) :
    RxWrite i s t := by
  obtain ⟨hi, u, hu, hcause⟩ := h
  obtain rfl := Host.Outcome.next.inj (hu.symm.trans ht)
  refine exec_rx_write s hi u hu ?_
  rcases hcause with ⟨hmoved, -⟩ | ⟨-, -, hwrites⟩
  · exact .inl hmoved
  · exact hwrites

/-- The one condition of R231 that a receiver step can show, from its event and the receiver's registers; by
`rxCondition_of_appliesTo`. -/
def rxCondition (i : Instr) (s : State) : Option Condition :=
  match i with
  | .rxData _ => if s.rxOff.toNat < Config.slotBytes then some .overrun else some .overlong
  | .rxStop _ => if s.rxOff.toNat = 0 then some .emptyStop else some .overrun
  | .rxRsvd _ => some .rsvdEvent
  | _ => none

theorem rxCondition_of_rxWrite {i : Instr} {s t : State} (h : RxWrite i s t) : rxCondition i s = some .overrun := by
  cases h with
  | store d event room _ =>
    subst event
    exact if_pos room
  | commit x event _ some_byte _ =>
    subst event
    exact if_neg some_byte

theorem not_runsAdv_of_rx {i : Instr} {s : State} (hi : agentOf i = .rx) (d : Ticks) : ¬runsAdv d i s := by
  rintro ⟨⟨x, rfl⟩, -⟩
  cases hi

theorem rxCondition_of_appliesTo {c : Condition} {full : Bool} {i : Instr} {s t : State} (hi : agentOf i = .rx)
    (ht : exec i s = .next t) (h : c.appliesTo full i s) : rxCondition i s = some c := by
  cases c with
  | overlong =>
    obtain ⟨⟨d, rfl⟩, hoff⟩ := h
    exact if_neg (by rw [hoff]; decide)
  | emptyStop =>
    obtain ⟨⟨x, rfl⟩, hoff, -⟩ := h
    exact if_pos (by rw [hoff]; rfl)
  | rsvdEvent =>
    obtain ⟨x, rfl⟩ := h
    rfl
  | overrun => exact rxCondition_of_rxWrite (rxWrite_of_isOverrun h ht)
  | lateUpdate =>
    obtain ⟨d, hadv, -⟩ := h
    exact absurd hadv (not_runsAdv_of_rx hi d)
  | staleMatch =>
    obtain ⟨⟨d, hadv⟩, -⟩ := h
    exact absurd hadv (not_runsAdv_of_rx hi d)

/-! ### What the step does under each condition -/

theorem exec_of_isOverlong {i : Instr} {s : State} (h : isOverlong i s) :
    exec i s = .next { s with rxOvf := true, trace := s.trace ++ [.rel] } := by
  obtain ⟨⟨d, rfl⟩, hoff⟩ := h
  exact exec_rxData_drop d (by rw [hoff]; decide)

theorem exec_of_isEmptyStop_or_isRsvdEvent {i : Instr} {s : State} (h : isEmptyStop i s ∨ isRsvdEvent i) :
    exec i s = .next s := by
  rcases h with ⟨⟨x, rfl⟩, hoff, hovf⟩ | ⟨x, rfl⟩
  · exact exec_rxStop_ignore x hovf hoff
  · rfl

/-- The converse of `incCap_wr_of_avail`. -/
theorem avail_of_incCap_wr {s : State} (h : s.Ranges) (hmeet : incCap s.wr = s.rd) : s.avail = 41 := by
  have hwr := slotExists_iff.mp h.wr
  rw [avail_eq, ← hmeet, incCap_toNat]
  omega

theorem unread_eq_nil_of_eq {s : State} (h : s.rd = s.wr) : s.unread = [] := by
  refine (unread_eq_nil_iff s).mpr ?_
  rw [avail_eq, h, Nat.add_sub_cancel_left]

/-- A write to the ring carries on and reports nothing but the byte's own release. -/
theorem RxWrite.reports_nothing {i : Instr} {s t : State} (h : RxWrite i s t) :
    t = { s with mem := t.mem, wr := t.wr, rxOff := t.rxOff, trace := t.trace }
    ∧ (t.trace = s.trace ∨ ((∃ d, i = .rxData d) ∧ t.trace = s.trace ++ [.rel])) := by
  cases h with
  | store d event _ effect =>
    subst effect
    exact ⟨rfl, .inr ⟨⟨d, event⟩, rfl⟩⟩
  | commit x _ _ _ effect =>
    subst effect
    exact ⟨rfl, .inl rfl⟩

/-- 43_packet_ring.md R175: a write that moves the write cursor onto the read cursor finds 41 packets unread, and leaves none
in reach. -/
theorem RxWrite.meets_rd {i : Instr} {s t : State} (h : RxWrite i s t) (hs : s.Ranges) (hmoved : t.wr ≠ s.wr)
    (hmeet : t.wr = t.rd) : s.avail = 41 ∧ t.ready = false ∧ t.unread = [] := by
  refine ⟨?_, not_ready_of_eq hmeet.symm, unread_eq_nil_of_eq hmeet.symm⟩
  cases h with
  | store d _ _ effect => exact absurd (by rw [effect]; rfl) hmoved
  | commit x _ _ _ effect =>
    subst effect
    exact avail_of_incCap_wr hs hmeet

/-- Settles O59: a condition that applies is the one of `rxCondition`, and each names a step whose effect is known. -/
theorem atMostOneConditionPerReceiverStep : Obligations.AtMostOneConditionPerReceiverStep := by
  intro full i s t hr hi ht
  have answers {u : State} (hu : exec i s = .next u) : t = u := Host.Outcome.next.inj (ht.symm.trans hu)
  refine ⟨fun c c' hc hc' => ?one, fun h => answers (exec_of_isOverlong h),
    fun h => answers (exec_of_isEmptyStop_or_isRsvdEvent h), fun h => ?overrun⟩
  case one =>
    exact Option.some.inj ((rxCondition_of_appliesTo hi ht hc).symm.trans (rxCondition_of_appliesTo hi ht hc'))
  case overrun =>
    have hwrite := rxWrite_of_isOverrun h ht
    obtain ⟨hframe, htrace⟩ := hwrite.reports_nothing
    exact ⟨hframe, htrace, hwrite.meets_rd (State.ranges_of_inRange hr)⟩

end Sys2Proof.Machine
end

section
/-! 70_reset_and_hazards.md: the reset, and the time of the next toggle. Along ticks and bus events the waveform is
`Wave.tick` iterated (`runOps_wave`), so R262 is read off three facts of that iterate: its time, its flag, its toggles. -/

namespace Sys2Proof.Machine

/-! ### The reset -/

/-- Settles O54: the reset state writes each of these fields, and its memory lists no cell. -/
theorem envResetReinitialisesEverything : Obligations.EnvResetReinitialisesEverything := by
  intro s
  have hmem : ∀ a, s.afterReset.mem.read a = 0 := fun _ => rfl
  exact ⟨s.afterReset, rfl, rfl, rfl, rfl, rfl, rfl, rfl, rfl, rfl, hmem, rfl, rfl, rfl, rfl, rfl, rfl, rfl, rfl, rfl⟩

/-! ### The next toggle -/

/-- 00_scope.md R13: a tick is one unit of time, whether or not the counter meets the target. -/
theorem Wave.tick_now (w : Wave) : w.tick.now = w.now + 1 := by
  rw [tick]
  split
  case isTrue => rfl
  case isFalse => rfl

theorem Wave.tick_iterate_now (w : Wave) (n : Nat) : (tick^[n] w).now = w.now + n := by
  induction n with
  | zero => rfl
  | succ n ih => rw [Function.iterate_succ_apply', tick_now, ih, Nat.add_assoc]

/-- 10_state.md R27: the match of tick `toMatch` latches the flag, and a flag that is set stays set over ticks. -/
theorem Wave.tick_iterate_mf {w : Wave} {n : Nat} (hn : n < w.toMatch + 65536) :
    (tick^[n] w).mf = (w.mf || decide (w.toMatch ≤ n)) := by
  by_cases h : w.toMatch ≤ n
  case pos =>
    rw [tick_iterate_of_ge h hn, decide_eq_true h, Bool.or_true]
    rfl
  case neg =>
    rw [tick_iterate_of_lt (Nat.lt_of_not_le h), decide_eq_false h, Bool.or_false]
    rfl

/-- Settles O21: what `runOps_wave` makes of the waveform, read at its time, its toggles and its flag. -/
theorem nextToggleTimeIsFixedByTheTarget : Obligations.NextToggleTimeIsFixedByTheTarget := by
  intro s l hrange hl hticks
  obtain ⟨t, hrun, -, ht⟩ := runOps_wave (slotExists_of_inRange hrange).1 hl
  have hnow : t.wave.now = s.now + tickCount l := by rw [ht, Wave.tick_iterate_now]; rfl
  have htoggled := Wave.tick_iterate_toggled (w := s.wave) hticks
  have hmf := Wave.tick_iterate_mf (w := s.wave) hticks
  rw [← ht, wave_toMatch] at htoggled hmf
  exact ⟨t, hrun, hnow, htoggled, hmf⟩

end Sys2Proof.Machine
end
